-- ==== Sys2Proof/Word.lean ====
section
/-! DEFINITION. The bit vectors of the PFS block, by the spec's own widths (00_scope.md R11). -/

namespace Sys2Proof

/-- One bus byte: an opcode, a reply, or one byte of the frame space (30_encoding.md R90, R93). -/
abbrev Byte := BitVec 8

/-- A stored Sample: 16 bits, unsigned (30_encoding.md R95). -/
abbrev Sample := BitVec 16

/-- What the analog front end returns: the unsigned sum of 4 conversions (30_encoding.md R106). -/
abbrev AdcResult := BitVec 16

/-- A frame slot: 0 is slot A, 1 is slot B (30_encoding.md R102). -/
abbrev Slot := BitVec 1

/-- A byte offset inside one slot, 0 to 15 (20_memory.md R60). -/
abbrev Offset := BitVec 4

/-- A logical channel: 0 TEMP, 1 CURR, 2 CELL0, to 7 CELL5 (30_encoding.md R99). -/
abbrev Channel := BitVec 3

end Sys2Proof
end

