-- ==== Sys2Proof/Syntax.lean ====
section
/-! DEFINITION. The bus opcodes (30_encoding.md R91). -/

namespace Sys2Proof

/-- The six opcodes of the opcode map (30_encoding.md R91). The seven NOP rows of the opcode table are ONE
opcode, "other", written as patterns (R105); `nop` keeps the byte that was sent. -/
inductive Instr where
  /-- 0x00: stage the next byte and advance the cursor (R123). -/
  | normal
  /-- 0x01: reset the cursor, then as NORMAL (R124). -/
  | receiveData
  /-- 0x02: trip the relay (R125). -/
  | fireRelay
  /-- 0x03: force the indicator on (R126). -/
  | ledOn
  /-- 0x04: force the indicator off (R127). -/
  | ledOff
  /-- Any byte 0x05 to 0xFF (R128). -/
  | nop (b : Byte)
deriving DecidableEq, Repr

end Sys2Proof
end

