-- ==== Sys2Proof/WellFormed.lean ====
section
/-! DEFINITION. Which opcode terms a byte can spell. -/

namespace Sys2Proof

/-- The one field an opcode can have, the byte of a NOP, lies in 5 to 255 (30_encoding.md R91, R96): the
bytes 0 to 4 spell the other five opcodes. -/
def Instr.wellFormed : Instr → Bool
  | .normal => true
  | .receiveData => true
  | .fireRelay => true
  | .ledOn => true
  | .ledOff => true
  | .nop b => decide (5 ≤ b.toNat)

end Sys2Proof
end

