-- ==== Sys2Proof/Decode.lean ====
section
/-! DEFINITION. The opcode decoder, total on bytes (30_encoding.md R105), and the encoder. -/

namespace Sys2Proof

/-- The decoder compares the whole received byte with 0, 1, 2, 3, 4; any other value is NOP (R105). Every
byte is a legal opcode, so nothing is rejected (R96). -/
def decode (b : Byte) : Instr :=
  if b = 0x00#8 then .normal
  else if b = 0x01#8 then .receiveData
  else if b = 0x02#8 then .fireRelay
  else if b = 0x03#8 then .ledOn
  else if b = 0x04#8 then .ledOff
  else .nop b

/-- Every byte of a stream is decoded on its own: no prefix, no argument byte, no second length (R97). -/
def decodeProgram (bs : List Byte) : List Instr := bs.map decode

/-- The byte of an opcode (R91, R103). -/
def encode : Instr → Byte
  | .normal => 0x00#8
  | .receiveData => 0x01#8
  | .fireRelay => 0x02#8
  | .ledOn => 0x03#8
  | .ledOff => 0x04#8
  | .nop b => b

/-- The encoding of a host program is the sequence of its bytes (R103). -/
def encodeProgram (is : List Instr) : List Byte := is.map encode

/-- The mnemonic of 30_encoding.md R91. -/
def Instr.mnemonic : Instr → String
  | .normal => "NORMAL"
  | .receiveData => "RECEIVEDATA"
  | .fireRelay => "FIRERELAY"
  | .ledOn => "LEDON"
  | .ledOff => "LEDOFF"
  | .nop _ => "NOP"

/-- One row of the match and mask form of the opcode map (R105): byte `b` selects it when
`b & mask = value`. -/
structure OpcodeRow where
  mnemonic : String
  value : Byte
  mask : Byte
deriving DecidableEq, Repr

/-- The twelve rows of R105. The decoder does not use them; a test shows that the two forms agree. -/
def opcodeRows : List OpcodeRow :=
  [⟨"NORMAL", 0x00, 0xFF⟩, ⟨"RECEIVEDATA", 0x01, 0xFF⟩, ⟨"FIRERELAY", 0x02, 0xFF⟩,
   ⟨"LEDON", 0x03, 0xFF⟩, ⟨"LEDOFF", 0x04, 0xFF⟩, ⟨"NOP", 0x05, 0xFF⟩,
   ⟨"NOP", 0x06, 0xFE⟩, ⟨"NOP", 0x08, 0xF8⟩, ⟨"NOP", 0x10, 0xF0⟩,
   ⟨"NOP", 0x20, 0xE0⟩, ⟨"NOP", 0x40, 0xC0⟩, ⟨"NOP", 0x80, 0x80⟩]

/-- Whether byte `b` selects the row. -/
def OpcodeRow.selects (r : OpcodeRow) (b : Byte) : Bool := b &&& r.mask == r.value

/-- The byte of a table word: its low `nbits` bits, the bits above them zero. -/
def tableByte (nbits w : Nat) : Byte := BitVec.ofNat 8 (w % 2 ^ nbits)

/-- What the decoder reads from a word numbered as the opcode table numbers it. Every instruction is one
byte (R90), so a word of more than eight bits, or with a bit above `nbits`, is no instruction. -/
def decodeTableWord (nbits w : Nat) : Option Instr :=
  if nbits ≤ 8 ∧ w < 2 ^ nbits then some (decode (tableByte nbits w)) else none

end Sys2Proof
end

