-- ==== Sys2Proof/Config.lean ====
section
/-! DEFINITION. What is fixed for one block: the constants of 00_scope.md R8, the parameters R9 leaves open
(opaque constants without a body, so that no proof can see a value), the events the agents of R15
deliver, and the free choice of the next event. -/

namespace Sys2Proof

/-- Reference-voltage class of a channel: low (thermal), mid (current), high (cell). The numbers 0, 1, 2
of 30_encoding.md R98 carry no behaviour; the value 3 is never driven, so it has no constructor. -/
inductive RefClass where
  | low
  | mid
  | high
deriving DecidableEq, Repr

/-- What an agent of 00_scope.md R15 can deliver at a step boundary; the textual forms are those of
30_encoding.md R103. -/
inductive Event where
  /-- RESET asserts `rst` (70_reset_and_hazards.md R270). -/
  | reset
  /-- HOST performs one exchange with byte `b` (40_protocol_opcodes.md R120). -/
  | exchange (b : Byte)
  /-- HOST sends byte `b` before the handler of the byte before it has finished (R284, U6). -/
  | overrun (b : Byte)
  /-- TICKTIMER delivers the sampling tick (42_sampler_sequencer.md R170). -/
  | tick
  /-- SEQ takes the one step it has enabled without the ADC, if it has one (R184). -/
  | seq
  /-- ADC delivers a completion with result `r` (R176). -/
  | adcDone (r : AdcResult)
  /-- BLINKTIMER puts its level on `blink_on` (43_monitor_relay_indicator.md R214). -/
  | blink (level : Bool)
deriving DecidableEq, Repr, Inhabited

namespace Config

/-- `N_CH` (R8). -/
def numChannels : Nat := 8
/-- `N_SLOT` (R8). -/
def numSlots : Nat := 2
/-- `ADC_W` (R8): bits of one raw conversion. -/
def adcWidth : Nat := 10
/-- `OVERSAMPLE` (R8): raw conversions summed per reading. -/
def oversample : Nat := 4
/-- `FRAME_BYTES` (R8): bytes of one serialized frame. -/
def frameBytes : Nat := 16
/-- The frame space: two slots of 16 bytes (20_memory.md R60). -/
def frameSpaceBytes : Nat := numSlots * frameBytes
/-- The largest result the front end returns when it keeps the boot contract (30_encoding.md R106). -/
def adcResultMax : Nat := oversample * (2 ^ adcWidth - 1)
/-- `TICK_PERIOD` in milliseconds (R8). Timing: no rule computes with it (70_reset_and_hazards.md R290). -/
def tickPeriodMs : Nat := 10
/-- `BLINK_PERIOD` in milliseconds (R8). Timing: no rule computes with it. -/
def blinkPeriodMs : Nat := 2000
/-- `BLINK_ON` in milliseconds (R8). Timing: no rule computes with it. -/
def blinkOnMs : Nat := 100

/-- `MUX_W` less one: R9 asks for a positive width and gives none (D14; log entry 2). -/
opaque muxWidthPred : Nat
/-- `MUX_W` (R9), open and positive. -/
def muxWidth : Nat := muxWidthPred + 1
/-- `DAC_W` less one (R9, D15; log entry 2). -/
opaque dacWidthPred : Nat
/-- `DAC_W` (R9), open and positive. -/
def dacWidth : Nat := dacWidthPred + 1

/-- `CH_INPUT[c]` (R9, R10): the physical input of a logical channel, not in the source (D14, U15). -/
opaque chInput : Channel → BitVec muxWidth
/-- `TX_RESET` (R9): the staged byte after reset, an open parameter (D4; log entry 3). -/
opaque txReset : Byte
/-- `V_MIN` in volts (R9, 10_state.md R38). -/
opaque vMin : Rat
/-- `T_MAX` in degrees Celsius (R9, R38). -/
opaque tMax : Rat
/-- `I_TARGET` in amperes (R9, R38); an input of `Setpoint` only. -/
opaque iTarget : Rat
/-- `SupplyEstimate` (R9, 43_monitor_relay_indicator.md R201): under no law but being a function of its Sample. -/
opaque supplyEstimate : Sample → Rat
/-- `Temperature` (R9, R204): under no law but being a function of its Sample. -/
opaque temperature : Sample → Rat
/-- `Setpoint` (R9, R202): the DAC code for a target current and a supply estimate, under no other law. -/
opaque setpointFor : (target vs : Rat) → BitVec dacWidth

/-- The FREE VALUE of the model: which event the agents deliver at the `n`-th step boundary for which
nothing was placed in `State.inputs` (00_scope.md R13, R16, R18: the interleaving, the host's bytes, the
ADC's results and whether it answers are free; log entry 1). -/
opaque environment : Nat → Event

end Config

/-- The numeric functions and thresholds the monitor is given (R9: "A model takes each as an argument"). -/
structure MonitorParams where
  /-- `SupplyEstimate`, in volts. -/
  supplyEstimate : Sample → Rat
  /-- `Temperature`, in degrees Celsius. -/
  temperature : Sample → Rat
  /-- `Setpoint` at the block's target current. -/
  setpoint : Rat → BitVec Config.dacWidth
  /-- `V_MIN`. -/
  vMin : Rat
  /-- `T_MAX`. -/
  tMax : Rat

/-- The parameters of this block: the open constants of `Config`. -/
def Config.monitorParams : MonitorParams where
  supplyEstimate := Config.supplyEstimate
  temperature := Config.temperature
  setpoint := Config.setpointFor Config.iTarget
  vMin := Config.vMin
  tMax := Config.tMax

end Sys2Proof
end

