-- ==== Sys2Proof/Machine/State.lean ====
section
/-! DEFINITION. The state of the block: the fourteen elements of 10_state.md R20, the levels and pulses of
the ports that are not one of them, and the events waiting to be delivered. -/

namespace Sys2Proof.Machine

/-- The frame space as (address, byte) pairs; slot `s`, offset `o` has address `16 * s + o` (20_memory.md R60). -/
abbrev Memory := List Host.Cell

/-- `ind_mode` (10_state.md R28): AUTO, ON, OFF; the value 3 is never produced, so it has no constructor. -/
inductive IndMode where
  | auto
  | on
  | off
deriving DecidableEq, Repr

/-- `seq` (10_state.md R32): the position in the sweep; the values 5 to 7 are never produced. -/
inductive SeqState where
  | idle
  | setup
  | wait
  | monitor
  | publish
deriving DecidableEq, Repr

/-- No step of the block faults (00_scope.md R17): every byte is a legal opcode, every ADC result is stored
at face value, no address outside the frame space can be formed. So there is no fault to name. -/
inductive Fault where
deriving DecidableEq, Repr

/-- Why the model gives a situation no meaning. -/
inductive Refusal where
  /-- Raised by an arm of `exec` whose instruction has no meaning yet (safe). No arm raises it. -/
  | notModelled (mnemonic : String)
  /-- Raised by the event `overrun`: a byte arrives before the handler of the byte before it has finished,
  which no rule gives a meaning (70_reset_and_hazards.md R284; 93 U6, treatment `refuse`). Safe. -/
  | byteOverrun
deriving DecidableEq, Repr

/-- The machine. The first fourteen fields are the block's state (10_state.md R20); the rest is the model's:
one input level, the pending events, and what the ports emitted in the last step. -/
structure State where
  /-- `F[s][c]` (R21), held as the 32 bytes of the frame space. -/
  frameMem : Memory
  /-- `active` (R22): the slot the handler reads. -/
  active : Slot
  /-- `cur` (R23): the protocol cursor. -/
  cur : Offset
  /-- `tx` (R24): the staged byte; it is the level of the port `tx_data` (60_exceptions.md R247). -/
  tx : Byte
  /-- `still_blinking` (R26). -/
  stillBlinking : Bool
  /-- `ind_mode` (R28). -/
  indMode : IndMode
  /-- `blink_enable` (R29). -/
  blinkEnable : Bool
  /-- `relay_open` (R30). -/
  relayOpen : Bool
  /-- `tick_pending` (R31). -/
  tickPending : Bool
  /-- `seq` (R32). -/
  seq : SeqState
  /-- `ch` (R33). -/
  ch : Channel
  /-- `adc_ref` (R34). -/
  adcRef : RefClass
  /-- `adc_mux` (R35). -/
  adcMux : BitVec Config.muxWidth
  /-- `dac_setpoint` (R36). -/
  dacSetpoint : BitVec Config.dacWidth
  /-- Model's own: the level of the input port `blink_on` (60_exceptions.md R252). -/
  blinkOn : Bool
  /-- Model's own: the events that will be delivered next, in order (log entry 1). -/
  inputs : List Event
  /-- Model's own: how many events have been drawn from `Config.environment`. -/
  draws : Nat
  /-- Model's own: the reply byte of the last step, if it was an exchange (40_protocol_opcodes.md R120). -/
  outReply : Option Byte
  /-- Model's own: whether the last step emitted `adc_start` (42_sampler_sequencer.md R175). -/
  outAdcStart : Bool
deriving DecidableEq, Repr

/-- The machine right after reset (70_reset_and_hazards.md R271; log entries 3 and 4), with nothing placed
in its inputs. An unlisted byte of the frame space reads 0x00 (R21). -/
def State.reset : State where
  frameMem := []
  active := 0#1
  cur := 0#4
  tx := Config.txReset
  stillBlinking := true
  indMode := .auto
  blinkEnable := true
  relayOpen := false
  tickPending := false
  seq := .idle
  ch := 0#3
  adcRef := .low
  adcMux := Config.chInput 0#3
  dacSetpoint := 0#Config.dacWidth
  blinkOn := false
  inputs := []
  draws := 0
  outReply := none
  outAdcStart := false

end Sys2Proof.Machine
end

