-- ==== Sys2Proof/Machine/Ops.lean ====
section
/-! DEFINITION. The named operations: bytes of memory, the access primitives of the frame space, and the
pieces every step is built from. There is no exception to take: no operation raises one, and a reaction
saves nothing and returns to nothing (60_exceptions.md R230, R239, R240). -/

namespace Sys2Proof.Machine

/-! ## Memory: a list in canonical form -/

/-- What a byte that is not listed reads as: the reset contents of the frame store, 0x00 (10_state.md R21). -/
def Memory.unlisted : Byte := 0x00#8

/-- Read one byte. -/
def Memory.read : Memory → Nat → Byte
  | [], _ => Memory.unlisted
  | c :: m, k => if c.1 = k then c.2 else Memory.read m k

/-- Remove every entry of an address. -/
def Memory.erase (m : Memory) (k : Nat) : Memory := m.filter (fun c => decide (c.1 ≠ k))

/-- Put an entry before the first larger address. -/
def Memory.insert : Memory → Nat → Byte → Memory
  | [], k, v => [(k, v)]
  | c :: m, k, v => if k < c.1 then (k, v) :: c :: m else c :: Memory.insert m k v

/-- Write one byte, keeping the canonical form. -/
def Memory.write (m : Memory) (k : Nat) (v : Byte) : Memory :=
  if v = Memory.unlisted then Memory.erase m k else Memory.insert (Memory.erase m k) k v

/-- The canonical form: addresses strictly rising, each in the frame space, and no entry equal to what an
unlisted byte reads as. -/
abbrev Memory.wf (m : Memory) : Prop :=
  m.Pairwise (fun a b => a.1 < b.1) ∧ ∀ c ∈ m, c.2 ≠ Memory.unlisted ∧ c.1 < Config.frameSpaceBytes

/-! ## The frame space -/

/-- The address of byte (s, o): the pair as one 5-bit number (20_memory.md R60). -/
def frameAddr (s : Slot) (o : Offset) : Nat := (s ++ o).toNat

/-- Offset of the low byte of a channel's sample, `{c, 0}` (30_encoding.md R92). -/
def lowOffset (c : Channel) : Offset := c ++ 0#1

/-- Offset of the high byte of a channel's sample, `{c, 1}` (30_encoding.md R92). -/
def highOffset (c : Channel) : Offset := c ++ 1#1

/-- Bits 7:0 of a sample. -/
def lowByte (v : Sample) : Byte := v.extractLsb' 0 8

/-- Bits 15:8 of a sample. -/
def highByte (v : Sample) : Byte := v.extractLsb' 8 8

/-- `FrameRead(s, o)`: the byte `Ser(s, o)` (20_memory.md R62). -/
def frameRead (st : State) (s : Slot) (o : Offset) : Byte := Memory.read st.frameMem (frameAddr s o)

/-- `F[s][c]`: the sample register, `{byte at 2c+1, byte at 2c}` (20_memory.md R61; 30_encoding.md R92). -/
def sample (st : State) (s : Slot) (c : Channel) : Sample :=
  frameRead st s (highOffset c) ++ frameRead st s (lowOffset c)

/-- `FrameWrite(s, c, v)`: both bytes of the sample change in the same step (20_memory.md R63). -/
def frameWrite (st : State) (s : Slot) (c : Channel) (v : Sample) : State :=
  { st with
    frameMem :=
      Memory.write (Memory.write st.frameMem (frameAddr s (lowOffset c)) (lowByte v))
        (frameAddr s (highOffset c)) (highByte v) }

/-! ## Ports -/

/-- A step begins: the pulses of the step before are over. -/
def beginStep (s : State) : State := { s with outReply := none, outAdcStart := false }

/-- The byte staged before this exchange is what the host receives (40_protocol_opcodes.md R120). It stays
staged (10_state.md R24). -/
def sendReply (s : State) : State := { s with outReply := some s.tx }

/-- The port `led`, a function of the mode and of the blink timer's level (43_monitor_relay_indicator.md R211). -/
def led (s : State) : Bool :=
  match s.indMode with
  | .on => true
  | .off => false
  | .auto => s.blinkOn

end Sys2Proof.Machine
end

