-- ==== Sys2Proof/Machine/Operands.lean ====
section
/-! DEFINITION. The two addressing modes (41_frame_store_ops.md R155), the cursor's arithmetic, the logical
part of the Channel Table, and the arithmetic of the sample. -/

namespace Sys2Proof.Machine

/-- The slot the sequencer writes, `active ^ 1` (20_memory.md R68). -/
def inactiveSlot (s : State) : Slot := s.active ^^^ 1#1

/-- READ_ACTIVE(o) (41_frame_store_ops.md R152). -/
def readActive (s : State) (o : Offset) : Byte := frameRead s s.active o

/-- Advance and wrap: `cur + 1` in 5 bits, 0 if that is 16 or more (40_protocol_opcodes.md R123, R130). -/
def nextCursor (c : Offset) : Offset :=
  let n : BitVec 5 := c.setWidth 5 + 1#5
  if 16 ≤ n.toNat then 0#4 else n.setWidth 4

/-- Cursor-indexed, active slot: the byte a staging opcode reads (R155 (1)). -/
def cursorOperand (s : State) : Byte := readActive s s.cur

/-- Post-increment of the cursor (R155 (1)). -/
def advanceCursor (s : State) : State := { s with cur := nextCursor s.cur }

/-- RECEIVEDATA's reset of the cursor (40_protocol_opcodes.md R124). -/
def resetCursor (s : State) : State := { s with cur := 0#4 }

/-- `CH_REF[c]` (00_scope.md R10): LOW for TEMP, MID for CURR, HIGH for the cells. -/
def chRef (c : Channel) : RefClass :=
  if c = 0#3 then .low else if c = 1#3 then .mid else .high

/-- The first channel of a sweep, TEMP; it is also the thermal channel the monitor reads (R204). -/
def tempChannel : Channel := 0#3

/-- The first cell tap, CELL0, from which the supply is estimated (43_monitor_relay_indicator.md R201). -/
def cell0Channel : Channel := 2#3

/-- The last channel of a sweep, CELL5. -/
def lastChannel : Channel := 7#3

/-- The stored sample: the sum of 4 conversions shifted right by 2, truncating (42_sampler_sequencer.md R181). -/
def sampleOfResult (r : AdcResult) : Sample := r >>> 2

end Sys2Proof.Machine
end

