-- ==== Sys2Proof/Machine/Flags.lean ====
section
/-! DEFINITION. The one-bit elements and who sets and clears them (10_state.md R26, R29, R30, R31). The block
has no condition codes (R43). -/

namespace Sys2Proof.Machine

/-- HandlerEntry(): the first handler after reset disables the blink compare and forces the indicator off;
every later one finds `still_blinking = 0` (40_protocol_opcodes.md R121). -/
def handlerEntry (s : State) : State :=
  if s.stillBlinking then
    { s with blinkEnable := false, indMode := .off, stillBlinking := false }
  else s

/-- Trip(): set-only and idempotent (43_monitor_relay_indicator.md R208). -/
def trip (s : State) : State := { s with relayOpen := true }

/-- TICK sets `tick_pending`; a tick already pending absorbs it (42_sampler_sequencer.md R170). -/
def setTickPending (s : State) : State := { s with tickPending := true }

/-- `ind_mode <- m` (40_protocol_opcodes.md R126, R127). -/
def setIndMode (s : State) (m : IndMode) : State := { s with indMode := m }

end Sys2Proof.Machine
end

