-- ==== Sys2Proof/Machine/FrameStore.lean ====
section
/-! DEFINITION. The frame store's operations on the machine (41_frame_store_ops.md); READ_ACTIVE is in
Operands.lean. -/

namespace Sys2Proof.Machine

/-- WRITE_INACTIVE(c, v): `F[active ^ 1][c] <- v` (R151). -/
def writeInactive (s : State) (c : Channel) (v : Sample) : State := frameWrite s (inactiveSlot s) c v

/-- PUBLISH: `active <- active ^ 1`, one indivisible write; no sample moves (R153). -/
def publish (s : State) : State := { s with active := s.active ^^^ 1#1 }

end Sys2Proof.Machine
end

