-- ==== Sys2Proof/Machine/Protocol.lean ====
section
/-! DEFINITION. The protocol state machine: the exchange and the meanings of the six opcodes
(40_protocol_opcodes.md). Every meaning is one whole exchange: reply, handler entry, the opcode's arm. -/

namespace Sys2Proof.Machine

/-- EXCHANGE around the arm of an opcode: the reply is taken first, then the handler's entry side effect
runs, then the arm (R120, R121, R122). -/
def exchangeWith (arm : State → State) (s : State) : Host.Outcome State Fault Refusal :=
  .next (arm (handlerEntry (sendReply s)))

/-- Normal(): stage the byte at the cursor of the active slot, then advance the cursor (R123). -/
def stageNext (s : State) : State := advanceCursor { s with tx := cursorOperand s }

/-- NORMAL (R123). -/
def execNormal (s : State) : Host.Outcome State Fault Refusal := exchangeWith stageNext s

/-- RECEIVEDATA: reset the cursor and fall through into NORMAL (R124). -/
def execReceiveData (s : State) : Host.Outcome State Fault Refusal :=
  exchangeWith (fun t => stageNext (resetCursor t)) s

/-- FIRERELAY (R125). -/
def execFireRelay (s : State) : Host.Outcome State Fault Refusal := exchangeWith trip s

/-- LEDON (R126). -/
def execLedOn (s : State) : Host.Outcome State Fault Refusal :=
  exchangeWith (fun t => setIndMode t .on) s

/-- LEDOFF (R127). -/
def execLedOff (s : State) : Host.Outcome State Fault Refusal :=
  exchangeWith (fun t => setIndMode t .off) s

/-- NOP, whatever its byte: the handler's entry and nothing more (R128). -/
def execNop (_b : Byte) (s : State) : Host.Outcome State Fault Refusal := exchangeWith (fun t => t) s

end Sys2Proof.Machine
end

