-- ==== Sys2Proof/Machine/Dispatch.lean ====
section
/-! DEFINITION. One arm per opcode (40_protocol_opcodes.md R122). -/

namespace Sys2Proof.Machine

def exec (i : Instr) (s : State) : Host.Outcome State Fault Refusal :=
  match i with
  | .normal => Sys2Proof.Machine.execNormal s
  | .receiveData => Sys2Proof.Machine.execReceiveData s
  | .fireRelay => Sys2Proof.Machine.execFireRelay s
  | .ledOn => Sys2Proof.Machine.execLedOn s
  | .ledOff => Sys2Proof.Machine.execLedOff s
  | .nop b => Sys2Proof.Machine.execNop b s

end Sys2Proof.Machine
end

