-- ==== Sys2Proof/Machine/Monitor.lean ====
section
/-! DEFINITION. The monitor evaluated at the end of a sweep (43_monitor_relay_indicator.md). -/

namespace Sys2Proof.Machine

/-- Monitor(F[active ^ 1]) with the numeric functions `p`: the setpoint is refreshed in every case, equality
trips both checks, and nothing is remembered between sweeps (R200 to R206). -/
def monitorWith (p : MonitorParams) (s : State) : State :=
  let vs := p.supplyEstimate (sample s (inactiveSlot s) cell0Channel)
  let s1 := { s with dacSetpoint := p.setpoint vs }
  let s2 := if vs ≤ p.vMin then trip s1 else s1
  let t := p.temperature (sample s (inactiveSlot s) tempChannel)
  if p.tMax ≤ t then trip s2 else s2

/-- The block's monitor: with its own open parameters (00_scope.md R9). -/
def monitor (s : State) : State := monitorWith Config.monitorParams s

end Sys2Proof.Machine
end

