-- ==== Sys2Proof/Machine/Sampler.lean ====
section
/-! DEFINITION. The sampler sequencer's steps (42_sampler_sequencer.md). -/

namespace Sys2Proof.Machine

/-- SWEEP_START (R171). -/
def sweepStart (s : State) : State := { s with tickPending := false, ch := tempChannel, seq := .setup }

/-- SETREF(c) (R173). -/
def setRef (c : Channel) (s : State) : State := { s with adcRef := chRef c }

/-- SELECT(c) (R174). -/
def selectInput (c : Channel) (s : State) : State := { s with adcMux := Config.chInput c }

/-- START: `emit adc_start` (R175). -/
def startConversion (s : State) : State := { s with outAdcStart := true }

/-- SETUP: SETREF, SELECT, START for channel `ch`, then wait (R172). -/
def setup (s : State) : State :=
  { startConversion (selectInput s.ch (setRef s.ch s)) with seq := .wait }

/-- STORE: the result divided by 4 goes to channel `ch` of the inactive slot, and the sweep moves on (R177). -/
def store (r : AdcResult) (s : State) : State :=
  let s1 := writeInactive s s.ch (sampleOfResult r)
  if s.ch = lastChannel then { s1 with seq := .monitor }
  else { s1 with ch := s.ch + 1#3, seq := .setup }

/-- MONITOR step (R178). -/
def monitorStep (s : State) : State := { monitor s with seq := .publish }

/-- PUBLISH step (R179). -/
def publishStep (s : State) : State := { publish s with seq := .idle }

/-- SEQ's turn: the one step it has enabled without the ADC; none when it is idle without a pending tick or
waiting for the ADC, and then nothing changes (state table R184; stall R183). -/
def seqStep (s : State) : State :=
  match s.seq with
  | .idle => if s.tickPending then sweepStart s else s
  | .setup => setup s
  | .wait => s
  | .monitor => monitorStep s
  | .publish => publishStep s

/-- ADC completion, joint with STORE (R176, R177). With `seq` not WAIT it is ignored
(70_reset_and_hazards.md R270). -/
def adcDone (r : AdcResult) (s : State) : State :=
  match s.seq with
  | .wait => store r s
  | .idle => s
  | .setup => s
  | .monitor => s
  | .publish => s

end Sys2Proof.Machine
end

