-- ==== Sys2Proof/Machine/Events.lean ====
section
/-! DEFINITION. What one event of an agent does to the block (00_scope.md R15). -/

namespace Sys2Proof.Machine

/-- RESET: every element of the block takes its reset value, whatever it was doing (70_reset_and_hazards.md
R270, R271). The blink timer's level and the events still to come are not the block's and stay. -/
def resetBlock (s : State) : State :=
  { State.reset with blinkOn := s.blinkOn, inputs := s.inputs, draws := s.draws }

/-- BLINKTIMER changes `blink_on` while `blink_enable = 1`; else it has no step the block can see
(43_monitor_relay_indicator.md R214). -/
def blinkTimer (level : Bool) (s : State) : State :=
  if s.blinkEnable then { s with blinkOn := level } else s

/-- Deliver one event: one atomic step of its agent (00_scope.md R13). -/
def deliver (e : Event) (s : State) : Host.Outcome State Fault Refusal :=
  match e with
  | .reset => .next (resetBlock s)
  | .exchange b => exec (decode b) s
  | .overrun _ => .refused .byteOverrun
  | .tick => .next (setTickPending s)
  | .seq => .next (seqStep s)
  | .adcDone r => .next (adcDone r s)
  | .blink level => .next (blinkTimer level s)

/-- The event of this step and the state it is delivered to: the first pending one, else the free choice of
`Config.environment`; the pulses of the step before are over. -/
def nextEvent (s : State) : Event × State :=
  match s.inputs with
  | e :: es => (e, beginStep { s with inputs := es })
  | [] => (Config.environment s.draws, beginStep { s with draws := s.draws + 1 })

/-- Place an event before all pending ones. -/
def placeEvent (s : State) (e : Event) : State := { s with inputs := e :: s.inputs }

end Sys2Proof.Machine
end

