-- ==== Sys2Proof/Machine/Step.lean ====
section
/-! DEFINITION. One step of the machine: deliver the next event. -/

namespace Sys2Proof.Machine

/-- One atomic step (00_scope.md R13): the next event is taken and delivered. -/
def step (s : State) : Host.Outcome State Fault Refusal := deliver (nextEvent s).1 (nextEvent s).2

/-- The machine with an opcode's byte placed as the exchange of the very next step. The block fetches
nothing (20_memory.md R75): its program is the bytes the host sends. -/
def State.withFetchWord (s : State) (nbits w : Nat) : State := placeEvent s (.exchange (tableByte nbits w))

end Sys2Proof.Machine
end

