-- ==== Sys2Proof/Safety.lean ====
section
/-! DEFINITION. The terms claims are stated in: the invariant of 10_state.md R40, the record of which sweep's
results each slot holds, runs of exchanges, and the scripts of 30_encoding.md R104. -/

namespace Sys2Proof

open Sys2Proof.Machine

/-- What every step keeps (10_state.md R40 (1) to (5)): the frame space in its canonical form, the two
blink bits equal, AUTO exactly while the first exchange is still to come, the ADC's controls set for the
channel being converted, and `ch` at the last channel once the sweep has stored it. -/
structure Inv (s : State) : Prop where
  memory : Memory.wf s.frameMem
  blink : s.blinkEnable = s.stillBlinking
  mode : s.indMode = .auto ↔ s.stillBlinking = true
  frontEnd : s.seq = .wait → s.adcRef = chRef s.ch ∧ s.adcMux = Config.chInput s.ch
  lastStored : s.seq = .monitor ∨ s.seq = .publish → s.ch = lastChannel

/-- An ADC result the boot contract allows (30_encoding.md R106). -/
def inContract : Event → Prop
  | .adcDone r => r.toNat ≤ Config.adcResultMax
  | .reset => True
  | .exchange _ => True
  | .overrun _ => True
  | .tick => True
  | .seq => True
  | .blink _ => True

/-- Every sample of both slots is a 10-bit value (42_sampler_sequencer.md R181). -/
def SamplesTenBit (s : State) : Prop := ∀ (sl : Slot) (c : Channel), (sample s sl c).toNat ≤ 1023

/-! ## Which sweep a slot holds -/

/-- A record beside a run: the results the sweep in progress has taken so far, and those of the sweeps whose
frames the active and the inactive slot hold (`none`: the reset contents). It is no state of the block. -/
structure History where
  current : List AdcResult
  published : Option (List AdcResult)
  older : Option (List AdcResult)
deriving DecidableEq, Repr

/-- After reset nothing has been measured. -/
def History.atReset : History := ⟨[], none, none⟩

/-- How the record follows an event delivered in state `s`: a completion is taken only in WAIT; PUBLISH makes
the sweep's results the published ones. -/
def History.next (h : History) (e : Event) (s : State) : History :=
  match e with
  | .reset => History.atReset
  | .adcDone r => if s.seq = .wait then { h with current := h.current ++ [r] } else h
  | .seq => if s.seq = .publish then ⟨[], some h.current, h.published⟩ else h
  | .exchange _ => h
  | .overrun _ => h
  | .tick => h
  | .blink _ => h

/-- The sample a recorded frame has for a channel: a quarter of the result, 0 for the reset contents. -/
def recordedSample (f : Option (List AdcResult)) (c : Channel) : Nat :=
  match f with
  | none => 0
  | some rs => (rs.getD c.toNat 0#16).toNat / 4

/-- The slots hold what the record says: the active slot one whole sweep or the reset contents (20_memory.md
R72); in the inactive slot the channels this sweep has stored hold its samples and the others older values
(10_state.md R40 (7)). -/
structure FrameRecord (h : History) (s : State) : Prop where
  publishedWhole : ∀ rs, h.published = some rs → rs.length = 8
  activeSlot : ∀ c : Channel, (sample s s.active c).toNat = recordedSample h.published c
  inactiveStored : ∀ c : Channel, c.toNat < h.current.length →
    (sample s (inactiveSlot s) c).toNat = recordedSample (some h.current) c
  inactiveOlder : ∀ c : Channel, h.current.length ≤ c.toNat →
    (sample s (inactiveSlot s) c).toNat = recordedSample h.older c
  whenIdle : s.seq = .idle → h.current = []
  whenConverting : s.seq = .setup ∨ s.seq = .wait → h.current.length = s.ch.toNat
  whenSwept : s.seq = .monitor ∨ s.seq = .publish → h.current.length = 8

/-! ## Runs -/

/-- NORMAL and RECEIVEDATA, the opcodes that stage a byte (10_state.md R24). -/
def Instr.stages : Instr → Bool
  | .normal => true
  | .receiveData => true
  | .fireRelay => false
  | .ledOn => false
  | .ledOff => false
  | .nop _ => false

/-- Whether an event is an exchange that stages a byte. -/
def stagingEvent : Event → Bool
  | .exchange b => (decode b).stages
  | .reset => false
  | .overrun _ => false
  | .tick => false
  | .seq => false
  | .adcDone _ => false
  | .blink _ => false

/-- Whether an event is a step of the sequencer, alone or jointly with the ADC (42_sampler_sequencer.md R180). -/
def sweepEvent : Event → Bool
  | .seq => true
  | .adcDone _ => true
  | .reset => false
  | .exchange _ => false
  | .overrun _ => false
  | .tick => false
  | .blink _ => false

/-- Events after which the block goes on from where it was: neither a reset nor a byte overrun. -/
def ordinaryEvent : Event → Bool
  | .reset => false
  | .overrun _ => false
  | .exchange _ => true
  | .tick => true
  | .seq => true
  | .adcDone _ => true
  | .blink _ => true

/-- A host program: exchanges one after the other, stopping where one stops. -/
def runProgram : List Instr → State → Host.Outcome State Fault Refusal
  | [], s => .next s
  | i :: is, s =>
    match exec i s with
    | .next t => runProgram is t
    | .fault f => .fault f
    | .refused r => .refused r

/-- `k` steps, stopping where one stops. -/
def runSteps : Nat → State → Host.Outcome State Fault Refusal
  | 0, s => .next s
  | k + 1, s =>
    match step s with
    | .next t => runSteps k t
    | .fault f => .fault f
    | .refused r => .refused r

/-- `k` steps, with the reply bytes they gave the host, in order. -/
def runReplies : Nat → State → Option (List Byte × State)
  | 0, s => some ([], s)
  | k + 1, s =>
    match step s with
    | .next t => (runReplies k t).map (fun p => (t.outReply.toList ++ p.1, p.2))
    | .fault _ => none
    | .refused _ => none

/-- The channels in the order of a sweep (00_scope.md R10). -/
def sweepChannels : List Channel := [0#3, 1#3, 2#3, 3#3, 4#3, 5#3, 6#3, 7#3]

/-- The 19 sequencer steps of one sweep with results `r` (42_sampler_sequencer.md R180). -/
def sweepSteps (r : Channel → AdcResult) : List Event :=
  .seq :: (sweepChannels.flatMap (fun c => [.seq, .adcDone (r c)]) ++ [.seq, .seq])

/-- `READFRAME` with any last byte: RECEIVEDATA, fifteen NORMAL, one drain exchange (30_encoding.md R104). -/
def readFrameBytes (last : Byte) : List Byte := 0x01#8 :: (List.replicate 15 0x00#8 ++ [last])

/-- The 16 payload bytes of the active slot, in order (30_encoding.md R94). -/
def payload (s : State) : List Byte := (List.range 16).map (fun o => readActive s (BitVec.ofNat 4 o))

end Sys2Proof
end

