-- ==== Sys2Proof/Certificates/Slice0/Obligations.lean ====
section
/-! DEFINITION. What the model is claimed to do. Each statement's docstring names the rule it formalises, and
says so where it rests on a decision or a derivation of the spec, or on the model's own choice. -/

open Sys2Proof Sys2Proof.Machine

/-! ## Encoding -/

/-- Words written out bit by bit from 30_encoding.md R91 and R105, one per opcode and one per NOP pattern,
decode to their opcode. -/
def Obligations.WrittenOpcodeBytesDecode : Prop :=
  decode 0b00000000#8 = .normal ∧ decode 0b00000001#8 = .receiveData ∧
  decode 0b00000010#8 = .fireRelay ∧ decode 0b00000011#8 = .ledOn ∧
  decode 0b00000100#8 = .ledOff ∧ decode 0b00000101#8 = .nop 0b00000101#8 ∧
  decode 0b00000110#8 = .nop 0b00000110#8 ∧ decode 0b00001000#8 = .nop 0b00001000#8 ∧
  decode 0b00010000#8 = .nop 0b00010000#8 ∧ decode 0b00100000#8 = .nop 0b00100000#8 ∧
  decode 0b01000000#8 = .nop 0b01000000#8 ∧ decode 0b10000000#8 = .nop 0b10000000#8 ∧
  decode 0b11111111#8 = .nop 0b11111111#8

/-- Decoding and encoding agree both ways: every well-formed opcode is read back from its byte, and every byte
decodes to a well-formed opcode that encodes to that byte (30_encoding.md R91, R105). -/
def Obligations.DecodeAndEncodeAgree : Prop :=
  (∀ i : Instr, i.wellFormed = true → decode (encode i) = i) ∧
  (∀ b : Byte, (decode b).wellFormed = true ∧ encode (decode b) = b)

/-- A host program of well-formed opcodes is read back from its bytes, and every sequence of bytes is the
encoding of a program (30_encoding.md R97, R103). -/
def Obligations.HostProgramRoundTrip : Prop :=
  (∀ p : List Instr, (∀ i ∈ p, i.wellFormed = true) → decodeProgram (encodeProgram p) = p) ∧
  (∀ bs : List Byte, encodeProgram (decodeProgram bs) = bs)

/-- No byte traps, 5 to 255 are NOP, and a NOP still runs the handler's entry (30_encoding.md R96). The step
that delivers the byte answers a next state for every byte in every state. What the entry does is
40_protocol_opcodes.md R121, whose reading that the mode becomes OFF is decision D18 (log entry 18); the
queue `inputs`, of which the step takes the head and leaves the rest, is the model's own (log entry 1). -/
def Obligations.EveryByteIsALegalOpcode : Prop :=
  (∀ b : Byte, 5 ≤ b.toNat → decode b = .nop b) ∧
  (∀ (s : State) (b : Byte) (es : List Event), s.inputs = .exchange b :: es →
    ∃ t, step s = .next t ∧ t.inputs = es ∧ t.stillBlinking = false) ∧
  (∀ (s : State) (b : Byte), s.stillBlinking = true →
    ∃ t, exec (.nop b) s = .next t ∧ t.blinkEnable = false ∧ t.indMode = .off)

/-! ## The step -/

/-- A step whose next event is an exchange runs the opcode its byte decodes to, on the state without that
event and with the output pulses of the step before taken back (40_protocol_opcodes.md sections 1 and 2; the
queue of events is the model's own, log entry 1). -/
def Obligations.StepRunsDecodedInstruction : Prop :=
  ∀ (s : State) (b : Byte) (es : List Event), s.inputs = .exchange b :: es →
    step s = exec (decode b) { s with inputs := es, outReply := none, outAdcStart := false }

/-- A step delivers the first pending event and, where none is pending, the one the environment chooses
freely; the draw counter then advances (the model's own convention, log entry 1). -/
def Obligations.StepDeliversNextEvent : Prop :=
  (∀ (s : State) (e : Event) (es : List Event), s.inputs = e :: es →
    step s = deliver e { s with inputs := es, outReply := none, outAdcStart := false }) ∧
  (∀ s : State, s.inputs = [] →
    step s = deliver (Config.environment s.draws)
      { s with draws := s.draws + 1, outReply := none, outAdcStart := false })

/-- A step stops in one case only: a byte overrun, which the model refuses by name (00_scope.md R17; the
refusal is the treatment of 93_implementation_defined.md U6 and log entry 8). -/
def Obligations.OnlyAByteOverrunStops : Prop :=
  ∀ s : State,
    (∃ b, (nextEvent s).1 = .overrun b ∧ step s = .refused .byteOverrun) ∨
    ((∀ b, (nextEvent s).1 ≠ .overrun b) ∧ ∃ t, step s = .next t)

/-! ## Reset -/

/-- The reset values of 70_reset_and_hazards.md R271 for the elements whose value the spec gives as its own
decisions D4 to D13 or as the source's; `tx` and `adc_mux` reset to open parameters. -/
def Obligations.ResetValues : Prop :=
  (∀ (sl : Slot) (c : Channel), sample State.reset sl c = 0x0000#16) ∧
  State.reset.active = 0#1 ∧ State.reset.cur = 0#4 ∧ State.reset.tx = Config.txReset ∧
  State.reset.stillBlinking = true ∧ State.reset.indMode = .auto ∧ State.reset.blinkEnable = true ∧
  State.reset.relayOpen = false ∧ State.reset.tickPending = false ∧ State.reset.seq = .idle ∧
  State.reset.ch = 0#3 ∧ State.reset.adcRef = .low ∧ State.reset.adcMux = Config.chInput 0#3 ∧
  State.reset.dacSetpoint = 0#Config.dacWidth

/-- RESET in any state gives every element of the block its reset value, and what it leaves is the agents'
own: the blink level and the events still to come (70_reset_and_hazards.md section 1, decision D28). -/
def Obligations.ResetEventRestoresEveryElement : Prop :=
  ∀ s : State, ∃ t, deliver .reset s = .next t ∧
    (∀ (sl : Slot) (c : Channel), sample t sl c = 0x0000#16) ∧
    t = { State.reset with blinkOn := s.blinkOn, inputs := s.inputs, draws := s.draws }

/-- The first exchange after reset replies the reset value of `tx`, turns the blink off for good, and stages
zero bytes until a frame is published (70_reset_and_hazards.md R272 (1) and (2), a derivation of the spec
from decisions D4 and D6; that the entry leaves the mode OFF is decision D18, log entry 18). -/
def Obligations.FirstExchangeAfterReset : Prop :=
  ∀ i : Instr, ∃ t, exec i State.reset = .next t ∧ t.outReply = some Config.txReset ∧
    t.stillBlinking = false ∧ t.blinkEnable = false ∧
    t.indMode = (if i = .ledOn then .on else .off) ∧
    t.tx = (if i.stages then 0x00#8 else Config.txReset)

/-! ## The exchange and the six opcodes -/

/-- 70_reset_and_hazards.md R280: the reply never depends on the opcode, it is the byte staged before; the
byte this exchange leaves staged is the reply of the next one, whatever that is. Every opcode completes in
every state. -/
def Obligations.ReplyIsTheByteStagedBefore : Prop :=
  ∀ (i : Instr) (s : State), ∃ t, exec i s = .next t ∧ t.outReply = some s.tx ∧
    ∀ j : Instr, ∃ u, exec j t = .next u ∧ u.outReply = some t.tx

/-- The frame of all six opcodes: an exchange changes `tx`, `cur`, the three indicator elements, `relay_open`
and the reply, and nothing else; no byte of the frame space changes (10_state.md R20, the written-by
column; the elements' widths and encodings there are decisions). -/
def Obligations.ExchangeFrame : Prop :=
  ∀ (i : Instr) (s : State), ∃ t, exec i s = .next t ∧
    t = { s with
      tx := t.tx, cur := t.cur, stillBlinking := t.stillBlinking, indMode := t.indMode,
      blinkEnable := t.blinkEnable, relayOpen := t.relayOpen, outReply := t.outReply } ∧
    ∀ (sl : Slot) (o : Offset), frameRead t sl o = frameRead s sl o

/-- The handler's entry side effect acts in the first exchange only, before the opcode: the blink compare is
disabled and the mode forced off, which only LEDON in the same exchange overrides (40_protocol_opcodes.md
R121, whose reading `ind_mode <- OFF` is decision D18). -/
def Obligations.HandlerEntryActsOnce : Prop :=
  ∀ (i : Instr) (s : State), ∃ t, exec i s = .next t ∧ t.stillBlinking = false ∧
    t.blinkEnable = (if s.stillBlinking then false else s.blinkEnable) ∧
    t.indMode = (match i with
      | .ledOn => .on
      | .ledOff => .off
      | .normal => if s.stillBlinking then .off else s.indMode
      | .receiveData => if s.stillBlinking then .off else s.indMode
      | .fireRelay => if s.stillBlinking then .off else s.indMode
      | .nop _ => if s.stillBlinking then .off else s.indMode)

/-- NORMAL stages the byte at the cursor of the active slot, the low half of a sample at an even offset and
the high half at an odd one, and advances the cursor modulo 16 (40_protocol_opcodes.md R123; that `active` is
read at the moment of staging is decision D19, log entry 15). The rest is the handler's entry, R121, whose
reading that the mode becomes OFF is decision D18, log entry 18. -/
def Obligations.NormalStagesNextByteAndAdvances : Prop :=
  ∀ s : State, ∃ t, exec .normal s = .next t ∧
    t.tx = (if s.cur.toNat % 2 = 0
      then (sample s s.active (BitVec.ofNat 3 (s.cur.toNat / 2))).extractLsb' 0 8
      else (sample s s.active (BitVec.ofNat 3 (s.cur.toNat / 2))).extractLsb' 8 8) ∧
    t.cur.toNat = (s.cur.toNat + 1) % 16 ∧
    (∀ (sl : Slot) (o : Offset), frameRead t sl o = frameRead s sl o) ∧
    t = { s with
      outReply := some s.tx, tx := t.tx, cur := t.cur, stillBlinking := false,
      blinkEnable := if s.stillBlinking then false else s.blinkEnable,
      indMode := if s.stillBlinking then .off else s.indMode }

/-- After RECEIVEDATA `tx` is byte 0 of the active slot and `cur` is 1, whatever the cursor was; the reply is
the old `tx`, byte 0 is the reply of the exchange after it, and a second RECEIVEDATA stages byte 0 again
(40_protocol_opcodes.md R124; that `active` is read at the moment of staging is decision D19, log entry 15).
The rest of the state changes by the handler's entry alone, which is R121 and not R124; its reading that the
mode becomes OFF is decision D18, log entry 18. -/
def Obligations.ReceiveDataRestartsTheBurst : Prop :=
  ∀ s : State, ∃ t, exec .receiveData s = .next t ∧
    t.tx = (sample s s.active 0#3).extractLsb' 0 8 ∧ t.cur = 1#4 ∧
    (∀ (sl : Slot) (o : Offset), frameRead t sl o = frameRead s sl o) ∧
    t = { s with
      outReply := some s.tx, tx := t.tx, cur := t.cur, stillBlinking := false,
      blinkEnable := if s.stillBlinking then false else s.blinkEnable,
      indMode := if s.stillBlinking then .off else s.indMode } ∧
    (∀ j : Instr, ∃ u, exec j t = .next u ∧
      u.outReply = some ((sample s s.active 0#3).extractLsb' 0 8)) ∧
    ∃ u, exec .receiveData t = .next u ∧ u.tx = t.tx ∧ u.cur = 1#4

/-- FIRERELAY opens the relay, touches neither the cursor nor the staged byte, so the next exchange replies the
same byte; twice is once, and no opcode closes the relay (40_protocol_opcodes.md R125; that a byte stays
staged after it is clocked out is decision D3, log entry 5, that the relay is a latch decision D10, log entry
23). The rest is the handler's entry, R121, whose reading that the mode becomes OFF is decision D18, log
entry 18. -/
def Obligations.FireRelayTripsForGood : Prop :=
  ∀ s : State, ∃ t, exec .fireRelay s = .next t ∧ t.relayOpen = true ∧ t.cur = s.cur ∧ t.tx = s.tx ∧
    (∀ (sl : Slot) (o : Offset), frameRead t sl o = frameRead s sl o) ∧
    t = { s with
      outReply := some s.tx, relayOpen := true, stillBlinking := false,
      blinkEnable := if s.stillBlinking then false else s.blinkEnable,
      indMode := if s.stillBlinking then .off else s.indMode } ∧
    exec .fireRelay t = .next t ∧
    ∀ j : Instr, ∃ u, exec j t = .next u ∧ u.relayOpen = true ∧ u.outReply = t.outReply

/-- LEDON forces the mode on, also in the first exchange, whose entry forced it off, and the pin is then 1
whatever the blink timer does; nothing else but the handler's entry happens (40_protocol_opcodes.md R126,
the unchanged elements by the spec's derivation; `led` by decision D11). -/
def Obligations.LedOnForcesTheIndicatorOn : Prop :=
  ∀ s : State, ∃ t, exec .ledOn s = .next t ∧
    (∀ (sl : Slot) (o : Offset), frameRead t sl o = frameRead s sl o) ∧
    (∀ level : Bool, led { t with blinkOn := level } = true) ∧
    t = { s with
      outReply := some s.tx, indMode := .on, stillBlinking := false,
      blinkEnable := if s.stillBlinking then false else s.blinkEnable }

/-- LEDOFF forces the mode off and the pin to 0; nothing else but the handler's entry happens, so as the first
exchange it leaves what a NOP leaves (40_protocol_opcodes.md R127, the unchanged elements by the spec's
derivation; `led` by decision D11, and the mode OFF that a first NOP leaves by decision D18 on R121, both log
entry 18). -/
def Obligations.LedOffForcesTheIndicatorOff : Prop :=
  ∀ s : State, ∃ t, exec .ledOff s = .next t ∧
    (∀ (sl : Slot) (o : Offset), frameRead t sl o = frameRead s sl o) ∧
    (∀ level : Bool, led { t with blinkOn := level } = false) ∧
    t = { s with
      outReply := some s.tx, indMode := .off, stillBlinking := false,
      blinkEnable := if s.stillBlinking then false else s.blinkEnable } ∧
    (s.stillBlinking = true → ∀ b : Byte, exec (.nop b) s = .next t)

/-- A NOP of any byte writes nothing but what the handler's entry writes; its reply is `tx`, which is kept, so
the next exchange replies the same byte again (40_protocol_opcodes.md R128; that `tx` is kept is decision
D3, log entry 5; that the handler's entry, R121, leaves the mode OFF is decision D18, log entry 18). -/
def Obligations.NopKeepsTheStagedByte : Prop :=
  ∀ (b : Byte) (s : State), ∃ t, exec (.nop b) s = .next t ∧
    (∀ (sl : Slot) (o : Offset), frameRead t sl o = frameRead s sl o) ∧
    t = { s with
      outReply := some s.tx, stillBlinking := false,
      blinkEnable := if s.stillBlinking then false else s.blinkEnable,
      indMode := if s.stillBlinking then .off else s.indMode } ∧
    ∀ j : Instr, ∃ u, exec j t = .next u ∧ u.outReply = t.outReply

/-! ## Laws of the protocol -/

/-- Cursor arithmetic over host programs: without RECEIVEDATA the cursor advances by one for each NORMAL,
modulo 16, and RECEIVEDATA itself is the first advance from 0 (40_protocol_opcodes.md R130, a derivation of
the spec). -/
def Obligations.CursorCountsAdvances : Prop :=
  (∀ (p : List Instr) (s : State), .receiveData ∉ p →
    ∃ t, runProgram p s = .next t ∧ t.cur.toNat = (s.cur.toNat + p.count .normal) % 16) ∧
  (∀ (p : List Instr) (s : State), .receiveData ∉ p →
    ∃ t, runProgram (.receiveData :: p) s = .next t ∧ t.cur.toNat = (1 + p.count .normal) % 16)

/-- Pipeline depth 1 with the other agents running: the reply of an exchange is the byte the last staging
exchange before it staged, however many sequencer steps, ticks, completions, blinks and non-staging
exchanges lie between (40_protocol_opcodes.md R129, a derivation of the spec). -/
def Obligations.PipelineDepthOne : Prop :=
  ∀ (s : State) (b b' : Byte) (es rest : List Event),
    s.inputs = .exchange b :: (es ++ .exchange b' :: rest) → b.toNat ≤ 1 →
    (∀ e ∈ es, ordinaryEvent e = true ∧ stagingEvent e = false) →
    ∃ t, runSteps (es.length + 2) s = .next t ∧ t.inputs = rest ∧
      t.outReply = some (frameRead s s.active (if b = 0x01#8 then 0#4 else s.cur))

/-- Reading a whole frame: RECEIVEDATA and fifteen NORMAL leave the cursor at 0 and byte 15 staged; the
seventeen replies with the drain exchange are the old `tx` and the 16 payload bytes in order
(40_protocol_opcodes.md R131, a derivation of the spec). -/
def Obligations.ReadFrameStreamsThePayload : Prop :=
  ∀ (s : State) (last : Byte) (rest : List Event),
    s.inputs = (readFrameBytes last).map Event.exchange ++ rest →
    (∃ u, runSteps 16 s = .next u ∧ u.cur = 0#4 ∧ u.tx = readActive s 15#4) ∧
    ∃ t, runReplies 17 s = some (s.tx :: payload s, t) ∧ t.inputs = rest

/-- 40_protocol_opcodes.md R133: no event but a received byte (and reset) changes `cur` or `tx`, and the only
byte that brings the cursor to a known value is RECEIVEDATA: any other event leaves the cursor where it was
or moves it one further. -/
def Obligations.OnlyReceivedBytesMoveTheCursor : Prop :=
  ∀ (e : Event) (s t : State), e ≠ .reset → deliver e s = .next t →
    ((∀ b, e ≠ .exchange b) → t.cur = s.cur ∧ t.tx = s.tx) ∧
    (e ≠ .exchange 0x00#8 → e ≠ .exchange 0x01#8 → t.cur = s.cur) ∧
    (e = .exchange 0x00#8 → t.cur = s.cur + 1#4) ∧
    (e = .exchange 0x01#8 → t.cur = 1#4)

/-! ## The frame store -/

/-- 20_memory.md R61: byte `o` of a slot is the low half of sample `o / 2` at an even offset and the high half
at an odd one, in every state. -/
def Obligations.SerializationIsLittleEndian : Prop :=
  ∀ (s : State) (sl : Slot) (o : Offset),
    (o.getLsbD 0 = false → frameRead s sl o = (sample s sl (o.extractLsb' 1 3)).extractLsb' 0 8) ∧
    (o.getLsbD 0 = true → frameRead s sl o = (sample s sl (o.extractLsb' 1 3)).extractLsb' 8 8)

/-- 20_memory.md R63: FrameWrite(s, c, v) puts `v` in sample (s, c), its low byte at offset 2c and its high
byte at 2c + 1, in one step; every other byte of both slots stays, and so does everything that is not
memory. -/
def Obligations.FrameWriteWritesOneSample : Prop :=
  ∀ (s : State) (sl : Slot) (c : Channel) (v : Sample),
    sample (frameWrite s sl c v) sl c = v ∧
    (∀ o : Offset, o.toNat = 2 * c.toNat → frameRead (frameWrite s sl c v) sl o = v.extractLsb' 0 8) ∧
    (∀ o : Offset, o.toNat = 2 * c.toNat + 1 →
      frameRead (frameWrite s sl c v) sl o = v.extractLsb' 8 8) ∧
    (∀ (sl' : Slot) (o : Offset), (sl', o.extractLsb' 1 3) ≠ (sl, c) →
      frameRead (frameWrite s sl c v) sl' o = frameRead s sl' o) ∧
    frameWrite s sl c v = { s with frameMem := (frameWrite s sl c v).frameMem }

/-- Short of reset, no event writes a byte of the active slot; a byte of the other slot changes only when a
completion is stored, and then only the one sample it is for, which gets a quarter of that completion (so
nothing clears or copies a slot); `active` is only ever flipped; and the handler reads no byte but the one at
the cursor of the active slot, at 0 for RECEIVEDATA (41_frame_store_ops.md R154 and R155). That the writer is
the STORE of 42_sampler_sequencer.md R177 and the flip the PUBLISH step of R179 are those rules; that the
sample is the result divided by 4, truncating, is R177 and R181 under decisions D20 and D21, log entry 14. -/
def Obligations.NoOtherAccessToTheFrameStore : Prop :=
  (∀ (e : Event) (s t : State), e ≠ .reset → deliver e s = .next t →
    (∀ o : Offset, frameRead t s.active o = frameRead s s.active o) ∧
    (∀ o : Offset, frameRead t (inactiveSlot s) o ≠ frameRead s (inactiveSlot s) o →
      s.seq = .wait ∧ o.extractLsb' 1 3 = s.ch ∧
        ∃ r, e = .adcDone r ∧ (sample t (inactiveSlot s) s.ch).toNat = r.toNat / 4) ∧
    (t.active ≠ s.active → t.active = s.active ^^^ 1#1 ∧ e = .seq ∧ s.seq = .publish)) ∧
  (∀ (i : Instr) (s : State) (m : Memory),
    frameRead { s with frameMem := m } s.active (if i = .receiveData then 0#4 else s.cur) =
      frameRead s s.active (if i = .receiveData then 0#4 else s.cur) →
    ∃ t, exec i s = .next t ∧ exec i { s with frameMem := m } = .next { t with frameMem := m })

/-! ## The sampler sequencer -/

/-- A tick sets `tick_pending` in every state, also during a sweep; a second one before the sweep starts
changes nothing, and nothing but that bit changes (42_sampler_sequencer.md sections 1 and 2, R170 and R182;
the bit is decision D8). -/
def Obligations.TicksCoalesce : Prop :=
  ∀ s : State, ∃ t, deliver .tick s = .next t ∧ t = { s with tickPending := true } ∧
    deliver .tick t = .next t

/-- SWEEP_START: from IDLE with a tick pending the tick is consumed and the sweep begins at channel 0; from
IDLE without one, SEQ's turn changes nothing (42_sampler_sequencer.md R171 and R184; the bit is decision
D8). -/
def Obligations.SweepStartsOnlyOnAPendingTick : Prop :=
  ∀ s : State, s.seq = .idle →
    (s.tickPending = true →
      deliver .seq s = .next { s with tickPending := false, ch := 0#3, seq := .setup }) ∧
    (s.tickPending = false → deliver .seq s = .next s)

/-- SETUP: the reference class of channel `ch` (LOW for 0, MID for 1, HIGH for 2 to 7) and its input are
presented, `adc_start` is emitted, and SEQ waits; nothing else changes (42_sampler_sequencer.md R172 to
R175; one step by decision D30). -/
def Obligations.SetupStartsOneConversion : Prop :=
  ∀ s : State, s.seq = .setup → ∃ t, deliver .seq s = .next t ∧
    t.adcRef = (if s.ch.toNat = 0 then .low else if s.ch.toNat = 1 then .mid else .high) ∧
    t.adcMux = Config.chInput s.ch ∧ t.outAdcStart = true ∧ t.seq = .wait ∧
    (∀ (sl : Slot) (o : Offset), frameRead t sl o = frameRead s sl o) ∧
    t = { s with
      adcRef := t.adcRef, adcMux := t.adcMux, outAdcStart := true, seq := .wait }

/-- STORE: the completion in WAIT puts a quarter of the result, truncated, into channel `ch` of the inactive
slot and into no other byte, and moves on to the next channel, or to MONITOR after channel 7, where `ch`
stays 7 (42_sampler_sequencer.md R176, R177; the truncating division is decision D20). -/
def Obligations.StoreKeepsAQuarterOfTheResult : Prop :=
  ∀ (s : State) (r : AdcResult), s.seq = .wait → ∃ t, deliver (.adcDone r) s = .next t ∧
    (sample t (inactiveSlot s) s.ch).toNat = r.toNat / 4 ∧
    (∀ (sl : Slot) (o : Offset), (sl, o.extractLsb' 1 3) ≠ (inactiveSlot s, s.ch) →
      frameRead t sl o = frameRead s sl o) ∧
    (s.ch.toNat < 7 → t.seq = .setup ∧ t.ch.toNat = s.ch.toNat + 1) ∧
    (s.ch.toNat = 7 → t.seq = .monitor ∧ t.ch = s.ch) ∧
    t = { s with frameMem := t.frameMem, ch := t.ch, seq := t.seq }

/-- A completion that arrives while SEQ is not waiting is ignored (70_reset_and_hazards.md section 1, decision
D28). -/
def Obligations.LateCompletionIsIgnored : Prop :=
  ∀ (s : State) (r : AdcResult), s.seq ≠ .wait → deliver (.adcDone r) s = .next s

/-- The MONITOR step: the setpoint is refreshed in every case (43_monitor_relay_indicator.md R202); the relay
opens when the supply estimate of CELL0 is at or below the minimum (R203) or the temperature of TEMP is at
or above the maximum (R204; equality trips), and otherwise keeps its state, a latch that TRIP only sets (R208;
that it is a latch is decision D10, log entry 23); nothing else changes but `seq`, which becomes PUBLISH (R200
and 42_sampler_sequencer.md R178). That the comparisons are of exact rationals is decision D32, log entry
17; the functions and thresholds are opaque parameters, log entry 2. -/
def Obligations.MonitorRefreshesSetpointAndTrips : Prop :=
  ∀ s : State, s.seq = .monitor → ∃ t, deliver .seq s = .next t ∧
    t.dacSetpoint =
      Config.setpointFor Config.iTarget (Config.supplyEstimate (sample s (s.active ^^^ 1#1) 2#3)) ∧
    (t.relayOpen = true ↔ s.relayOpen = true ∨
      Config.supplyEstimate (sample s (s.active ^^^ 1#1) 2#3) ≤ Config.vMin ∨
      Config.tMax ≤ Config.temperature (sample s (s.active ^^^ 1#1) 0#3)) ∧
    (∀ (sl : Slot) (o : Offset), frameRead t sl o = frameRead s sl o) ∧
    t = { s with dacSetpoint := t.dacSetpoint, relayOpen := t.relayOpen, seq := .publish }

/-- The monitor decides from two samples alone: whatever the numeric functions are, two states whose inactive
slots agree on TEMP and CELL0 and whose relays agree end with the same setpoint and relay, so CURR and the
other cells are read by nobody (43_monitor_relay_indicator.md R205, R206 and the purity of R207). -/
def Obligations.MonitorReadsOnlyTempAndCell0 : Prop :=
  ∀ (p : MonitorParams) (s s' : State),
    sample s (inactiveSlot s) 0#3 = sample s' (inactiveSlot s') 0#3 →
    sample s (inactiveSlot s) 2#3 = sample s' (inactiveSlot s') 2#3 →
    s.relayOpen = s'.relayOpen →
    (monitorWith p s).dacSetpoint = (monitorWith p s').dacSetpoint ∧
    (monitorWith p s).relayOpen = (monitorWith p s').relayOpen

/-- The PUBLISH step flips the selector and returns to IDLE, moving no sample, so the slots swap roles; with a
tick pending already, SWEEP_START is enabled at once (42_sampler_sequencer.md R179 and 41_frame_store_ops.md
R153; `tick_pending` is decision D8). -/
def Obligations.PublishFlipsTheSelector : Prop :=
  ∀ s : State, s.seq = .publish → ∃ t, deliver .seq s = .next t ∧
    t.active.toNat = 1 - s.active.toNat ∧ inactiveSlot t = s.active ∧
    (∀ (sl : Slot) (o : Offset), frameRead t sl o = frameRead s sl o) ∧
    t = { s with active := t.active, seq := .idle } ∧
    (s.tickPending = true → ∃ u, deliver .seq t = .next u ∧ u.seq = .setup) ∧
    (s.tickPending = false → deliver .seq t = .next t)

/-- The sequencer's state table: SEQ's turn and a completion move `seq` as 42_sampler_sequencer.md R184 says,
and no event of another agent but reset moves `seq`, `ch` or `active` (R184 is a derivation of the spec). -/
def Obligations.SequencerStateTable : Prop :=
  ∀ (e : Event) (s t : State), e ≠ .reset → deliver e s = .next t →
    (e = .seq → t.seq = (match s.seq with
      | .idle => if s.tickPending then .setup else .idle
      | .setup => .wait
      | .wait => .wait
      | .monitor => .publish
      | .publish => .idle)) ∧
    (∀ r, e = .adcDone r → t.seq = (match s.seq with
      | .idle => .idle
      | .setup => .setup
      | .wait => if s.ch.toNat < 7 then .setup else .monitor
      | .monitor => .monitor
      | .publish => .publish)) ∧
    (sweepEvent e = false → t.seq = s.seq ∧ t.ch = s.ch ∧ t.active = s.active)

/-- A whole sweep with traffic inside it: take any run of events whose sequencer steps are the 19 of one sweep
with results `r`, with any exchanges, ticks and blinks between them. From IDLE with a tick pending it ends
in IDLE with the slots swapped, the new active slot holding a quarter of each result, the slot the host was
reading untouched, the setpoint of this sweep's CELL0, and the relay open if it was, if FIRERELAY came, or if one of
the two checks on this sweep's samples fired (42_sampler_sequencer.md R180, a derivation of the
spec; decisions D8, D20, D30). -/
def Obligations.WholeSweepPublishesItsFrame : Prop :=
  ∀ (s : State) (r : Channel → AdcResult) (es rest : List Event),
    s.inputs = es ++ rest → es.filter sweepEvent = sweepSteps r →
    (∀ e ∈ es, ordinaryEvent e = true) →
    s.seq = .idle → s.tickPending = true →
    ∃ t, runSteps es.length s = .next t ∧ t.inputs = rest ∧ t.seq = .idle ∧
      t.active = s.active ^^^ 1#1 ∧ t.ch = 7#3 ∧ t.adcRef = .high ∧ t.adcMux = Config.chInput 7#3 ∧
      (∀ c : Channel, (sample t t.active c).toNat = (r c).toNat / 4) ∧
      (∀ c : Channel, sample t s.active c = sample s s.active c) ∧
      t.dacSetpoint =
        Config.setpointFor Config.iTarget (Config.supplyEstimate (BitVec.ofNat 16 ((r 2#3).toNat / 4))) ∧
      (t.relayOpen = true ↔ s.relayOpen = true ∨ .exchange 0x02#8 ∈ es ∨
        Config.supplyEstimate (BitVec.ofNat 16 ((r 2#3).toNat / 4)) ≤ Config.vMin ∨
        Config.tMax ≤ Config.temperature (BitVec.ofNat 16 ((r 0#3).toNat / 4)))

/-- While the ADC does not answer, whatever else happens short of reset, SEQ stays in WAIT, the selector, the
setpoint and the frames stay as they are, the relay opens only by FIRERELAY, a tick still sets
`tick_pending`, and every exchange still runs and serves the last published frame (42_sampler_sequencer.md
R183; that exchanges stay enabled is conflict C5, decision D23). -/
def Obligations.StallFreezesSamplingOnly : Prop :=
  ∀ (s : State) (es rest : List Event), s.seq = .wait → s.inputs = es ++ rest →
    (∀ e ∈ es, ordinaryEvent e = true ∧ ∀ r, e ≠ .adcDone r) →
    ∃ t, runSteps es.length s = .next t ∧ t.inputs = rest ∧ t.seq = .wait ∧ t.ch = s.ch ∧
      t.active = s.active ∧ t.dacSetpoint = s.dacSetpoint ∧ t.frameMem = s.frameMem ∧
      (t.relayOpen = true ↔ s.relayOpen = true ∨ .exchange 0x02#8 ∈ es) ∧
      (t.tickPending = true ↔ s.tickPending = true ∨ .tick ∈ es) ∧
      ∀ i : Instr, i.stages = true → ∃ u, exec i t = .next u ∧
        u.tx = frameRead s s.active (if i = .receiveData then 0#4 else t.cur)

/-! ## Relay and indicator -/

/-- Once issued, a trip is revoked by no event but reset, and reset revokes it; only FIRERELAY and the MONITOR
step set the bit; and no rule reads `relay_open` to decide anything: with the bit given another value, every
event does the same to all the rest (43_monitor_relay_indicator.md R209; the level is decision D10). -/
def Obligations.RelayIsSetOnlyAndUnread : Prop :=
  (∀ (e : Event) (s t : State), e ≠ .reset → deliver e s = .next t →
    (s.relayOpen = true → t.relayOpen = true) ∧
    (t.relayOpen ≠ s.relayOpen → e = .exchange 0x02#8 ∨ (e = .seq ∧ s.seq = .monitor))) ∧
  (∀ s : State, ∃ t, deliver .reset s = .next t ∧ t.relayOpen = false) ∧
  (∀ (e : Event) (s t : State) (v : Bool), deliver e s = .next t →
    ∃ w, deliver e { s with relayOpen := v } = .next { t with relayOpen := w })

/-- 10_state.md R26: `still_blinking` is 1 after reset, every exchange leaves it 0, and no event but reset ever
sets it again or, short of an exchange, changes it. -/
def Obligations.StillBlinkingIsOneWay : Prop :=
  State.reset.stillBlinking = true ∧
  (∀ (b : Byte) (s : State), ∃ t, deliver (.exchange b) s = .next t ∧ t.stillBlinking = false) ∧
  (∀ (e : Event) (s t : State), e ≠ .reset → deliver e s = .next t →
    (s.stillBlinking = false → t.stillBlinking = false) ∧
    ((∀ b, e ≠ .exchange b) → t.stillBlinking = s.stillBlinking))

/-- Once AUTO is left it is not entered again before reset, and then the blink timer no longer moves the pin:
only LEDON and LEDOFF do (43_monitor_relay_indicator.md R212, R213, and 90_conflicts.md C4; `led` and the
encodings are decision D11). -/
def Obligations.ModeLeavesAutoForGood : Prop :=
  ∀ (e : Event) (s t : State), e ≠ .reset → deliver e s = .next t → s.indMode ≠ .auto →
    t.indMode ≠ .auto ∧ (∀ level : Bool, led { t with blinkOn := level } = led t) ∧
    (s.stillBlinking = false → e ≠ .exchange 0x03#8 → e ≠ .exchange 0x04#8 → led t = led s)

/-- In AUTO the pin follows the blink timer while the block lets it: the timer's level reaches the pin when
`blink_enable` is 1 and the timer has no step when it is 0 (43_monitor_relay_indicator.md R211 and R214;
`led` is decision D11). -/
def Obligations.BlinkTimerDrivesOnlyAuto : Prop :=
  ∀ (s : State) (level : Bool), ∃ t, deliver (.blink level) s = .next t ∧
    (s.blinkEnable = true → t = { s with blinkOn := level } ∧ (s.indMode = .auto → led t = level)) ∧
    (s.blinkEnable = false → t = s) ∧ (s.indMode ≠ .auto → led t = led s)

/-! ## Agents together -/

/-- A byte and a tick at the same instant: both orders give the same state, up to which of the two steps the
reply pulse belongs to (60_exceptions.md R238, decision D29). -/
def Obligations.ExchangeAndTickCommute : Prop :=
  ∀ (s : State) (b : Byte), ∃ t u,
    deliver (.exchange b) s = .next t ∧ deliver .tick s = .next u ∧
    ∃ v, deliver .tick t = .next v ∧ deliver (.exchange b) u = .next v

/-- A NORMAL and a PUBLISH at the same instant: both orders give the same reply and end in the same state but
for the staged byte, which comes from the slot active at the moment of staging (60_exceptions.md R238;
20_memory.md R73, a derivation of the spec). -/
def Obligations.NormalAndPublishDifferInTheStagedByte : Prop :=
  ∀ s : State, s.seq = .publish → ∃ a a' p p',
    deliver (.exchange 0x00#8) s = .next a ∧ deliver .seq a = .next a' ∧
    deliver .seq s = .next p ∧ deliver (.exchange 0x00#8) p = .next p' ∧
    a.outReply = p'.outReply ∧
    a'.tx = frameRead s s.active s.cur ∧ p'.tx = frameRead s (inactiveSlot s) s.cur ∧
    p' = { a' with tx := p'.tx }

/-! ## Invariants -/

/-- The invariant holds after reset (10_state.md R40 at the values of R271, decisions of the spec). -/
def Obligations.InvariantAtReset : Prop := Inv State.reset

/-- Every step keeps the invariant: the frame space canonical, the blink bits equal, AUTO exactly until the
first exchange, the ADC's controls set for the channel in conversion, `ch` at 7 after the last store
(10_state.md R40, a derivation of the spec). -/
def Obligations.EveryStepKeepsTheInvariant : Prop :=
  ∀ s t : State, Inv s → step s = .next t → Inv t

/-- Nothing measured is recorded after reset, and both slots hold the reset contents (70_reset_and_hazards.md
R271, decision D6). -/
def Obligations.FrameRecordAtReset : Prop := FrameRecord History.atReset State.reset

/-- No torn slot: at every step the active slot holds the reset contents or the eight samples of one sweep, the
last published, and the inactive slot the samples of the sweep in progress up to `ch` and older ones after
(20_memory.md R72 and 10_state.md R40 (7), derivations of the spec). -/
def Obligations.NoStepTearsAFrame : Prop :=
  ∀ (h : History) (s t : State), FrameRecord h s → step s = .next t →
    FrameRecord (h.next (nextEvent s).1 (nextEvent s).2) t

/-- While the front end keeps its contract every sample of both slots stays a 10-bit value, so every byte at an
odd offset is at most 3 (42_sampler_sequencer.md R181, decision D20; 20_memory.md R64, a derivation of the
spec). -/
def Obligations.InContractSamplesStayTenBit : Prop :=
  SamplesTenBit State.reset ∧
  (∀ s t : State, SamplesTenBit s → inContract (nextEvent s).1 → step s = .next t → SamplesTenBit t) ∧
  (∀ (s : State) (sl : Slot) (o : Offset), SamplesTenBit s → o.toNat % 2 = 1 →
    (frameRead s sl o).toNat ≤ 3)
end

