-- ==== Sys2Proof/Laws/Memory.lean ====
section
/-! SUPPORT. The laws of memory: what a read after a write gives, on any list, and that a write keeps the
canonical form. -/

namespace Sys2Proof.Machine

theorem Memory.read_erase_self (m : Memory) (k : Nat) :
    Memory.read (Memory.erase m k) k = Memory.unlisted := by
  induction m with
  | nil => rfl
  | cons c m ih =>
    by_cases h : c.1 = k
    · simpa [Memory.erase, h] using ih
    · simpa [Memory.erase, Memory.read, h] using ih

theorem Memory.read_erase_other (m : Memory) {k j : Nat} (h : j ≠ k) :
    Memory.read (Memory.erase m k) j = Memory.read m j := by
  induction m with
  | nil => rfl
  | cons c m ih =>
    by_cases hk : c.1 = k
    · have hj : c.1 ≠ j := fun e => h (e.symm.trans hk)
      simpa [Memory.erase, Memory.read, hk, h.symm] using ih
    · by_cases hj : c.1 = j
      · simp [Memory.erase, Memory.read, hj, h]
      · simpa [Memory.erase, Memory.read, hk, hj] using ih

/-- Membership after an insertion. -/
theorem Memory.mem_insert (m : Memory) (k : Nat) (v : Byte) (c : Host.Cell) :
    c ∈ Memory.insert m k v ↔ c = (k, v) ∨ c ∈ m := by
  induction m with
  | nil => simp [Memory.insert]
  | cons d m ih =>
    by_cases h : k < d.1
    · simp [Memory.insert, h]
    · simp [Memory.insert, h, ih]
      tauto

/-- Reading the inserted address, where no entry had it before. -/
theorem Memory.read_insert_self (m : Memory) (k : Nat) (v : Byte) (h : ∀ c ∈ m, c.1 ≠ k) :
    Memory.read (Memory.insert m k v) k = v := by
  induction m with
  | nil => simp [Memory.insert, Memory.read]
  | cons d m ih =>
    have hd : d.1 ≠ k := h d (by simp)
    by_cases hk : k < d.1
    · simp [Memory.insert, hk, Memory.read]
    · simp only [Memory.insert, hk, if_false, Memory.read, hd]
      exact ih (fun c hc => h c (by simp [hc]))

theorem Memory.read_insert_other (m : Memory) {k j : Nat} (v : Byte) (h : j ≠ k) :
    Memory.read (Memory.insert m k v) j = Memory.read m j := by
  induction m with
  | nil => simp [Memory.insert, Memory.read, h.symm]
  | cons d m ih =>
    by_cases hk : k < d.1
    · simp [Memory.insert, hk, Memory.read, h.symm]
    · simp only [Memory.insert, hk, if_false, Memory.read, ih]

theorem Memory.erase_ne (m : Memory) (k : Nat) : ∀ c ∈ Memory.erase m k, c.1 ≠ k := by
  intro c hc
  simpa using (List.mem_filter.mp hc).2

/-- Read after a write to the same address. -/
@[simp] theorem Memory.read_write_self (m : Memory) (k : Nat) (v : Byte) :
    Memory.read (Memory.write m k v) k = v := by
  unfold Memory.write
  split
  · next h => rw [Memory.read_erase_self, h]
  · exact Memory.read_insert_self _ _ _ (Memory.erase_ne m k)

/-- A write leaves every other address alone. -/
theorem Memory.read_write_other (m : Memory) {k j : Nat} (v : Byte) (h : j ≠ k) :
    Memory.read (Memory.write m k v) j = Memory.read m j := by
  unfold Memory.write
  split
  · exact Memory.read_erase_other m h
  · rw [Memory.read_insert_other _ _ h, Memory.read_erase_other m h]

theorem Memory.wf_erase {m : Memory} (k : Nat) (h : Memory.wf m) : Memory.wf (Memory.erase m k) :=
  ⟨h.1.sublist List.filter_sublist, fun c hc => h.2 c (List.mem_filter.mp hc).1⟩

theorem Memory.wf_insert {m : Memory} {k : Nat} {v : Byte} (h : Memory.wf m) (hv : v ≠ Memory.unlisted)
    (hk : k < Config.frameSpaceBytes) (hne : ∀ c ∈ m, c.1 ≠ k) : Memory.wf (Memory.insert m k v) := by
  refine ⟨?_, fun c hc => ?_⟩
  · have hs := h.1
    clear h
    induction m with
    | nil => simp [Memory.insert]
    | cons d m ih =>
      obtain ⟨hd, hs⟩ := List.pairwise_cons.mp hs
      by_cases hlt : k < d.1
      · simp only [Memory.insert, hlt, if_true, List.pairwise_cons, List.mem_cons]
        refine ⟨?_, hd, hs⟩
        rintro c (rfl | hc)
        · exact hlt
        · exact lt_trans hlt (hd c hc)
      · simp only [Memory.insert, hlt, if_false, List.pairwise_cons]
        refine ⟨fun c hc => ?_, ih (fun c hc => hne c (by simp [hc])) hs⟩
        rcases (Memory.mem_insert m k v c).mp hc with rfl | hc
        · have := hne d (by simp)
          omega
        · exact hd c hc
  · rcases (Memory.mem_insert m k v c).mp hc with rfl | hc
    · exact ⟨hv, hk⟩
    · exact h.2 c hc

/-- A write inside the frame space keeps the canonical form. -/
theorem Memory.wf_write {m : Memory} {k : Nat} (v : Byte) (h : Memory.wf m)
    (hk : k < Config.frameSpaceBytes) : Memory.wf (Memory.write m k v) := by
  unfold Memory.write
  split
  · exact Memory.wf_erase k h
  · next hv => exact Memory.wf_insert (Memory.wf_erase k h) hv hk (Memory.erase_ne m k)

end Sys2Proof.Machine
end

