-- ==== Sys2Proof/Laws/State.lean ====
section
/-! SUPPORT. What each update of the state does to each field, so that no proof unfolds a record update. -/

namespace Sys2Proof.Machine

/-! ### beginStep -/

@[simp] theorem beginStep_frameMem (s : State) : (beginStep s).frameMem = s.frameMem := rfl
@[simp] theorem beginStep_active (s : State) : (beginStep s).active = s.active := rfl
@[simp] theorem beginStep_cur (s : State) : (beginStep s).cur = s.cur := rfl
@[simp] theorem beginStep_tx (s : State) : (beginStep s).tx = s.tx := rfl
@[simp] theorem beginStep_stillBlinking (s : State) : (beginStep s).stillBlinking = s.stillBlinking := rfl
@[simp] theorem beginStep_indMode (s : State) : (beginStep s).indMode = s.indMode := rfl
@[simp] theorem beginStep_blinkEnable (s : State) : (beginStep s).blinkEnable = s.blinkEnable := rfl
@[simp] theorem beginStep_relayOpen (s : State) : (beginStep s).relayOpen = s.relayOpen := rfl
@[simp] theorem beginStep_tickPending (s : State) : (beginStep s).tickPending = s.tickPending := rfl
@[simp] theorem beginStep_seq (s : State) : (beginStep s).seq = s.seq := rfl
@[simp] theorem beginStep_ch (s : State) : (beginStep s).ch = s.ch := rfl
@[simp] theorem beginStep_adcRef (s : State) : (beginStep s).adcRef = s.adcRef := rfl
@[simp] theorem beginStep_adcMux (s : State) : (beginStep s).adcMux = s.adcMux := rfl
@[simp] theorem beginStep_dacSetpoint (s : State) : (beginStep s).dacSetpoint = s.dacSetpoint := rfl
@[simp] theorem beginStep_blinkOn (s : State) : (beginStep s).blinkOn = s.blinkOn := rfl
@[simp] theorem beginStep_inputs (s : State) : (beginStep s).inputs = s.inputs := rfl
@[simp] theorem beginStep_draws (s : State) : (beginStep s).draws = s.draws := rfl
@[simp] theorem beginStep_outReply (s : State) : (beginStep s).outReply = none := rfl
@[simp] theorem beginStep_outAdcStart (s : State) : (beginStep s).outAdcStart = false := rfl

/-! ### sendReply -/

@[simp] theorem sendReply_frameMem (s : State) : (sendReply s).frameMem = s.frameMem := rfl
@[simp] theorem sendReply_active (s : State) : (sendReply s).active = s.active := rfl
@[simp] theorem sendReply_cur (s : State) : (sendReply s).cur = s.cur := rfl
@[simp] theorem sendReply_tx (s : State) : (sendReply s).tx = s.tx := rfl
@[simp] theorem sendReply_stillBlinking (s : State) : (sendReply s).stillBlinking = s.stillBlinking := rfl
@[simp] theorem sendReply_indMode (s : State) : (sendReply s).indMode = s.indMode := rfl
@[simp] theorem sendReply_blinkEnable (s : State) : (sendReply s).blinkEnable = s.blinkEnable := rfl
@[simp] theorem sendReply_relayOpen (s : State) : (sendReply s).relayOpen = s.relayOpen := rfl
@[simp] theorem sendReply_tickPending (s : State) : (sendReply s).tickPending = s.tickPending := rfl
@[simp] theorem sendReply_seq (s : State) : (sendReply s).seq = s.seq := rfl
@[simp] theorem sendReply_ch (s : State) : (sendReply s).ch = s.ch := rfl
@[simp] theorem sendReply_adcRef (s : State) : (sendReply s).adcRef = s.adcRef := rfl
@[simp] theorem sendReply_adcMux (s : State) : (sendReply s).adcMux = s.adcMux := rfl
@[simp] theorem sendReply_dacSetpoint (s : State) : (sendReply s).dacSetpoint = s.dacSetpoint := rfl
@[simp] theorem sendReply_blinkOn (s : State) : (sendReply s).blinkOn = s.blinkOn := rfl
@[simp] theorem sendReply_inputs (s : State) : (sendReply s).inputs = s.inputs := rfl
@[simp] theorem sendReply_draws (s : State) : (sendReply s).draws = s.draws := rfl
@[simp] theorem sendReply_outReply (s : State) : (sendReply s).outReply = some s.tx := rfl
@[simp] theorem sendReply_outAdcStart (s : State) : (sendReply s).outAdcStart = s.outAdcStart := rfl

/-! ### advanceCursor -/

@[simp] theorem advanceCursor_frameMem (s : State) : (advanceCursor s).frameMem = s.frameMem := rfl
@[simp] theorem advanceCursor_active (s : State) : (advanceCursor s).active = s.active := rfl
@[simp] theorem advanceCursor_cur (s : State) : (advanceCursor s).cur = nextCursor s.cur := rfl
@[simp] theorem advanceCursor_tx (s : State) : (advanceCursor s).tx = s.tx := rfl
@[simp] theorem advanceCursor_stillBlinking (s : State) : (advanceCursor s).stillBlinking = s.stillBlinking := rfl
@[simp] theorem advanceCursor_indMode (s : State) : (advanceCursor s).indMode = s.indMode := rfl
@[simp] theorem advanceCursor_blinkEnable (s : State) : (advanceCursor s).blinkEnable = s.blinkEnable := rfl
@[simp] theorem advanceCursor_relayOpen (s : State) : (advanceCursor s).relayOpen = s.relayOpen := rfl
@[simp] theorem advanceCursor_tickPending (s : State) : (advanceCursor s).tickPending = s.tickPending := rfl
@[simp] theorem advanceCursor_seq (s : State) : (advanceCursor s).seq = s.seq := rfl
@[simp] theorem advanceCursor_ch (s : State) : (advanceCursor s).ch = s.ch := rfl
@[simp] theorem advanceCursor_adcRef (s : State) : (advanceCursor s).adcRef = s.adcRef := rfl
@[simp] theorem advanceCursor_adcMux (s : State) : (advanceCursor s).adcMux = s.adcMux := rfl
@[simp] theorem advanceCursor_dacSetpoint (s : State) : (advanceCursor s).dacSetpoint = s.dacSetpoint := rfl
@[simp] theorem advanceCursor_blinkOn (s : State) : (advanceCursor s).blinkOn = s.blinkOn := rfl
@[simp] theorem advanceCursor_inputs (s : State) : (advanceCursor s).inputs = s.inputs := rfl
@[simp] theorem advanceCursor_draws (s : State) : (advanceCursor s).draws = s.draws := rfl
@[simp] theorem advanceCursor_outReply (s : State) : (advanceCursor s).outReply = s.outReply := rfl
@[simp] theorem advanceCursor_outAdcStart (s : State) : (advanceCursor s).outAdcStart = s.outAdcStart := rfl

/-! ### resetCursor -/

@[simp] theorem resetCursor_frameMem (s : State) : (resetCursor s).frameMem = s.frameMem := rfl
@[simp] theorem resetCursor_active (s : State) : (resetCursor s).active = s.active := rfl
@[simp] theorem resetCursor_cur (s : State) : (resetCursor s).cur = 0#4 := rfl
@[simp] theorem resetCursor_tx (s : State) : (resetCursor s).tx = s.tx := rfl
@[simp] theorem resetCursor_stillBlinking (s : State) : (resetCursor s).stillBlinking = s.stillBlinking := rfl
@[simp] theorem resetCursor_indMode (s : State) : (resetCursor s).indMode = s.indMode := rfl
@[simp] theorem resetCursor_blinkEnable (s : State) : (resetCursor s).blinkEnable = s.blinkEnable := rfl
@[simp] theorem resetCursor_relayOpen (s : State) : (resetCursor s).relayOpen = s.relayOpen := rfl
@[simp] theorem resetCursor_tickPending (s : State) : (resetCursor s).tickPending = s.tickPending := rfl
@[simp] theorem resetCursor_seq (s : State) : (resetCursor s).seq = s.seq := rfl
@[simp] theorem resetCursor_ch (s : State) : (resetCursor s).ch = s.ch := rfl
@[simp] theorem resetCursor_adcRef (s : State) : (resetCursor s).adcRef = s.adcRef := rfl
@[simp] theorem resetCursor_adcMux (s : State) : (resetCursor s).adcMux = s.adcMux := rfl
@[simp] theorem resetCursor_dacSetpoint (s : State) : (resetCursor s).dacSetpoint = s.dacSetpoint := rfl
@[simp] theorem resetCursor_blinkOn (s : State) : (resetCursor s).blinkOn = s.blinkOn := rfl
@[simp] theorem resetCursor_inputs (s : State) : (resetCursor s).inputs = s.inputs := rfl
@[simp] theorem resetCursor_draws (s : State) : (resetCursor s).draws = s.draws := rfl
@[simp] theorem resetCursor_outReply (s : State) : (resetCursor s).outReply = s.outReply := rfl
@[simp] theorem resetCursor_outAdcStart (s : State) : (resetCursor s).outAdcStart = s.outAdcStart := rfl

/-! ### handlerEntry -/

@[simp] theorem handlerEntry_frameMem (s : State) : (handlerEntry s).frameMem = s.frameMem := by
  unfold handlerEntry; split <;> rfl
@[simp] theorem handlerEntry_active (s : State) : (handlerEntry s).active = s.active := by
  unfold handlerEntry; split <;> rfl
@[simp] theorem handlerEntry_cur (s : State) : (handlerEntry s).cur = s.cur := by
  unfold handlerEntry; split <;> rfl
@[simp] theorem handlerEntry_tx (s : State) : (handlerEntry s).tx = s.tx := by
  unfold handlerEntry; split <;> rfl
@[simp] theorem handlerEntry_stillBlinking (s : State) : (handlerEntry s).stillBlinking = false := by
  unfold handlerEntry; split <;> simp_all
@[simp] theorem handlerEntry_indMode (s : State) : (handlerEntry s).indMode = (if s.stillBlinking then .off else s.indMode) := by
  unfold handlerEntry; split <;> simp_all
@[simp] theorem handlerEntry_blinkEnable (s : State) : (handlerEntry s).blinkEnable = (if s.stillBlinking then false else s.blinkEnable) := by
  unfold handlerEntry; split <;> simp_all
@[simp] theorem handlerEntry_relayOpen (s : State) : (handlerEntry s).relayOpen = s.relayOpen := by
  unfold handlerEntry; split <;> rfl
@[simp] theorem handlerEntry_tickPending (s : State) : (handlerEntry s).tickPending = s.tickPending := by
  unfold handlerEntry; split <;> rfl
@[simp] theorem handlerEntry_seq (s : State) : (handlerEntry s).seq = s.seq := by
  unfold handlerEntry; split <;> rfl
@[simp] theorem handlerEntry_ch (s : State) : (handlerEntry s).ch = s.ch := by
  unfold handlerEntry; split <;> rfl
@[simp] theorem handlerEntry_adcRef (s : State) : (handlerEntry s).adcRef = s.adcRef := by
  unfold handlerEntry; split <;> rfl
@[simp] theorem handlerEntry_adcMux (s : State) : (handlerEntry s).adcMux = s.adcMux := by
  unfold handlerEntry; split <;> rfl
@[simp] theorem handlerEntry_dacSetpoint (s : State) : (handlerEntry s).dacSetpoint = s.dacSetpoint := by
  unfold handlerEntry; split <;> rfl
@[simp] theorem handlerEntry_blinkOn (s : State) : (handlerEntry s).blinkOn = s.blinkOn := by
  unfold handlerEntry; split <;> rfl
@[simp] theorem handlerEntry_inputs (s : State) : (handlerEntry s).inputs = s.inputs := by
  unfold handlerEntry; split <;> rfl
@[simp] theorem handlerEntry_draws (s : State) : (handlerEntry s).draws = s.draws := by
  unfold handlerEntry; split <;> rfl
@[simp] theorem handlerEntry_outReply (s : State) : (handlerEntry s).outReply = s.outReply := by
  unfold handlerEntry; split <;> rfl
@[simp] theorem handlerEntry_outAdcStart (s : State) : (handlerEntry s).outAdcStart = s.outAdcStart := by
  unfold handlerEntry; split <;> rfl

/-! ### trip -/

@[simp] theorem trip_frameMem (s : State) : (trip s).frameMem = s.frameMem := rfl
@[simp] theorem trip_active (s : State) : (trip s).active = s.active := rfl
@[simp] theorem trip_cur (s : State) : (trip s).cur = s.cur := rfl
@[simp] theorem trip_tx (s : State) : (trip s).tx = s.tx := rfl
@[simp] theorem trip_stillBlinking (s : State) : (trip s).stillBlinking = s.stillBlinking := rfl
@[simp] theorem trip_indMode (s : State) : (trip s).indMode = s.indMode := rfl
@[simp] theorem trip_blinkEnable (s : State) : (trip s).blinkEnable = s.blinkEnable := rfl
@[simp] theorem trip_relayOpen (s : State) : (trip s).relayOpen = true := rfl
@[simp] theorem trip_tickPending (s : State) : (trip s).tickPending = s.tickPending := rfl
@[simp] theorem trip_seq (s : State) : (trip s).seq = s.seq := rfl
@[simp] theorem trip_ch (s : State) : (trip s).ch = s.ch := rfl
@[simp] theorem trip_adcRef (s : State) : (trip s).adcRef = s.adcRef := rfl
@[simp] theorem trip_adcMux (s : State) : (trip s).adcMux = s.adcMux := rfl
@[simp] theorem trip_dacSetpoint (s : State) : (trip s).dacSetpoint = s.dacSetpoint := rfl
@[simp] theorem trip_blinkOn (s : State) : (trip s).blinkOn = s.blinkOn := rfl
@[simp] theorem trip_inputs (s : State) : (trip s).inputs = s.inputs := rfl
@[simp] theorem trip_draws (s : State) : (trip s).draws = s.draws := rfl
@[simp] theorem trip_outReply (s : State) : (trip s).outReply = s.outReply := rfl
@[simp] theorem trip_outAdcStart (s : State) : (trip s).outAdcStart = s.outAdcStart := rfl

/-! ### setTickPending -/

@[simp] theorem setTickPending_frameMem (s : State) : (setTickPending s).frameMem = s.frameMem := rfl
@[simp] theorem setTickPending_active (s : State) : (setTickPending s).active = s.active := rfl
@[simp] theorem setTickPending_cur (s : State) : (setTickPending s).cur = s.cur := rfl
@[simp] theorem setTickPending_tx (s : State) : (setTickPending s).tx = s.tx := rfl
@[simp] theorem setTickPending_stillBlinking (s : State) : (setTickPending s).stillBlinking = s.stillBlinking := rfl
@[simp] theorem setTickPending_indMode (s : State) : (setTickPending s).indMode = s.indMode := rfl
@[simp] theorem setTickPending_blinkEnable (s : State) : (setTickPending s).blinkEnable = s.blinkEnable := rfl
@[simp] theorem setTickPending_relayOpen (s : State) : (setTickPending s).relayOpen = s.relayOpen := rfl
@[simp] theorem setTickPending_tickPending (s : State) : (setTickPending s).tickPending = true := rfl
@[simp] theorem setTickPending_seq (s : State) : (setTickPending s).seq = s.seq := rfl
@[simp] theorem setTickPending_ch (s : State) : (setTickPending s).ch = s.ch := rfl
@[simp] theorem setTickPending_adcRef (s : State) : (setTickPending s).adcRef = s.adcRef := rfl
@[simp] theorem setTickPending_adcMux (s : State) : (setTickPending s).adcMux = s.adcMux := rfl
@[simp] theorem setTickPending_dacSetpoint (s : State) : (setTickPending s).dacSetpoint = s.dacSetpoint := rfl
@[simp] theorem setTickPending_blinkOn (s : State) : (setTickPending s).blinkOn = s.blinkOn := rfl
@[simp] theorem setTickPending_inputs (s : State) : (setTickPending s).inputs = s.inputs := rfl
@[simp] theorem setTickPending_draws (s : State) : (setTickPending s).draws = s.draws := rfl
@[simp] theorem setTickPending_outReply (s : State) : (setTickPending s).outReply = s.outReply := rfl
@[simp] theorem setTickPending_outAdcStart (s : State) : (setTickPending s).outAdcStart = s.outAdcStart := rfl

/-! ### setIndMode -/

@[simp] theorem setIndMode_frameMem (s : State) (m : IndMode) : (setIndMode s m).frameMem = s.frameMem := rfl
@[simp] theorem setIndMode_active (s : State) (m : IndMode) : (setIndMode s m).active = s.active := rfl
@[simp] theorem setIndMode_cur (s : State) (m : IndMode) : (setIndMode s m).cur = s.cur := rfl
@[simp] theorem setIndMode_tx (s : State) (m : IndMode) : (setIndMode s m).tx = s.tx := rfl
@[simp] theorem setIndMode_stillBlinking (s : State) (m : IndMode) : (setIndMode s m).stillBlinking = s.stillBlinking := rfl
@[simp] theorem setIndMode_indMode (s : State) (m : IndMode) : (setIndMode s m).indMode = m := rfl
@[simp] theorem setIndMode_blinkEnable (s : State) (m : IndMode) : (setIndMode s m).blinkEnable = s.blinkEnable := rfl
@[simp] theorem setIndMode_relayOpen (s : State) (m : IndMode) : (setIndMode s m).relayOpen = s.relayOpen := rfl
@[simp] theorem setIndMode_tickPending (s : State) (m : IndMode) : (setIndMode s m).tickPending = s.tickPending := rfl
@[simp] theorem setIndMode_seq (s : State) (m : IndMode) : (setIndMode s m).seq = s.seq := rfl
@[simp] theorem setIndMode_ch (s : State) (m : IndMode) : (setIndMode s m).ch = s.ch := rfl
@[simp] theorem setIndMode_adcRef (s : State) (m : IndMode) : (setIndMode s m).adcRef = s.adcRef := rfl
@[simp] theorem setIndMode_adcMux (s : State) (m : IndMode) : (setIndMode s m).adcMux = s.adcMux := rfl
@[simp] theorem setIndMode_dacSetpoint (s : State) (m : IndMode) : (setIndMode s m).dacSetpoint = s.dacSetpoint := rfl
@[simp] theorem setIndMode_blinkOn (s : State) (m : IndMode) : (setIndMode s m).blinkOn = s.blinkOn := rfl
@[simp] theorem setIndMode_inputs (s : State) (m : IndMode) : (setIndMode s m).inputs = s.inputs := rfl
@[simp] theorem setIndMode_draws (s : State) (m : IndMode) : (setIndMode s m).draws = s.draws := rfl
@[simp] theorem setIndMode_outReply (s : State) (m : IndMode) : (setIndMode s m).outReply = s.outReply := rfl
@[simp] theorem setIndMode_outAdcStart (s : State) (m : IndMode) : (setIndMode s m).outAdcStart = s.outAdcStart := rfl

/-! ### publish -/

@[simp] theorem publish_frameMem (s : State) : (publish s).frameMem = s.frameMem := rfl
@[simp] theorem publish_active (s : State) : (publish s).active = s.active ^^^ 1#1 := rfl
@[simp] theorem publish_cur (s : State) : (publish s).cur = s.cur := rfl
@[simp] theorem publish_tx (s : State) : (publish s).tx = s.tx := rfl
@[simp] theorem publish_stillBlinking (s : State) : (publish s).stillBlinking = s.stillBlinking := rfl
@[simp] theorem publish_indMode (s : State) : (publish s).indMode = s.indMode := rfl
@[simp] theorem publish_blinkEnable (s : State) : (publish s).blinkEnable = s.blinkEnable := rfl
@[simp] theorem publish_relayOpen (s : State) : (publish s).relayOpen = s.relayOpen := rfl
@[simp] theorem publish_tickPending (s : State) : (publish s).tickPending = s.tickPending := rfl
@[simp] theorem publish_seq (s : State) : (publish s).seq = s.seq := rfl
@[simp] theorem publish_ch (s : State) : (publish s).ch = s.ch := rfl
@[simp] theorem publish_adcRef (s : State) : (publish s).adcRef = s.adcRef := rfl
@[simp] theorem publish_adcMux (s : State) : (publish s).adcMux = s.adcMux := rfl
@[simp] theorem publish_dacSetpoint (s : State) : (publish s).dacSetpoint = s.dacSetpoint := rfl
@[simp] theorem publish_blinkOn (s : State) : (publish s).blinkOn = s.blinkOn := rfl
@[simp] theorem publish_inputs (s : State) : (publish s).inputs = s.inputs := rfl
@[simp] theorem publish_draws (s : State) : (publish s).draws = s.draws := rfl
@[simp] theorem publish_outReply (s : State) : (publish s).outReply = s.outReply := rfl
@[simp] theorem publish_outAdcStart (s : State) : (publish s).outAdcStart = s.outAdcStart := rfl

/-! ### sweepStart -/

@[simp] theorem sweepStart_frameMem (s : State) : (sweepStart s).frameMem = s.frameMem := rfl
@[simp] theorem sweepStart_active (s : State) : (sweepStart s).active = s.active := rfl
@[simp] theorem sweepStart_cur (s : State) : (sweepStart s).cur = s.cur := rfl
@[simp] theorem sweepStart_tx (s : State) : (sweepStart s).tx = s.tx := rfl
@[simp] theorem sweepStart_stillBlinking (s : State) : (sweepStart s).stillBlinking = s.stillBlinking := rfl
@[simp] theorem sweepStart_indMode (s : State) : (sweepStart s).indMode = s.indMode := rfl
@[simp] theorem sweepStart_blinkEnable (s : State) : (sweepStart s).blinkEnable = s.blinkEnable := rfl
@[simp] theorem sweepStart_relayOpen (s : State) : (sweepStart s).relayOpen = s.relayOpen := rfl
@[simp] theorem sweepStart_tickPending (s : State) : (sweepStart s).tickPending = false := rfl
@[simp] theorem sweepStart_seq (s : State) : (sweepStart s).seq = .setup := rfl
@[simp] theorem sweepStart_ch (s : State) : (sweepStart s).ch = tempChannel := rfl
@[simp] theorem sweepStart_adcRef (s : State) : (sweepStart s).adcRef = s.adcRef := rfl
@[simp] theorem sweepStart_adcMux (s : State) : (sweepStart s).adcMux = s.adcMux := rfl
@[simp] theorem sweepStart_dacSetpoint (s : State) : (sweepStart s).dacSetpoint = s.dacSetpoint := rfl
@[simp] theorem sweepStart_blinkOn (s : State) : (sweepStart s).blinkOn = s.blinkOn := rfl
@[simp] theorem sweepStart_inputs (s : State) : (sweepStart s).inputs = s.inputs := rfl
@[simp] theorem sweepStart_draws (s : State) : (sweepStart s).draws = s.draws := rfl
@[simp] theorem sweepStart_outReply (s : State) : (sweepStart s).outReply = s.outReply := rfl
@[simp] theorem sweepStart_outAdcStart (s : State) : (sweepStart s).outAdcStart = s.outAdcStart := rfl

/-! ### setRef -/

@[simp] theorem setRef_frameMem (c : Channel) (s : State) : (setRef c s).frameMem = s.frameMem := rfl
@[simp] theorem setRef_active (c : Channel) (s : State) : (setRef c s).active = s.active := rfl
@[simp] theorem setRef_cur (c : Channel) (s : State) : (setRef c s).cur = s.cur := rfl
@[simp] theorem setRef_tx (c : Channel) (s : State) : (setRef c s).tx = s.tx := rfl
@[simp] theorem setRef_stillBlinking (c : Channel) (s : State) : (setRef c s).stillBlinking = s.stillBlinking := rfl
@[simp] theorem setRef_indMode (c : Channel) (s : State) : (setRef c s).indMode = s.indMode := rfl
@[simp] theorem setRef_blinkEnable (c : Channel) (s : State) : (setRef c s).blinkEnable = s.blinkEnable := rfl
@[simp] theorem setRef_relayOpen (c : Channel) (s : State) : (setRef c s).relayOpen = s.relayOpen := rfl
@[simp] theorem setRef_tickPending (c : Channel) (s : State) : (setRef c s).tickPending = s.tickPending := rfl
@[simp] theorem setRef_seq (c : Channel) (s : State) : (setRef c s).seq = s.seq := rfl
@[simp] theorem setRef_ch (c : Channel) (s : State) : (setRef c s).ch = s.ch := rfl
@[simp] theorem setRef_adcRef (c : Channel) (s : State) : (setRef c s).adcRef = chRef c := rfl
@[simp] theorem setRef_adcMux (c : Channel) (s : State) : (setRef c s).adcMux = s.adcMux := rfl
@[simp] theorem setRef_dacSetpoint (c : Channel) (s : State) : (setRef c s).dacSetpoint = s.dacSetpoint := rfl
@[simp] theorem setRef_blinkOn (c : Channel) (s : State) : (setRef c s).blinkOn = s.blinkOn := rfl
@[simp] theorem setRef_inputs (c : Channel) (s : State) : (setRef c s).inputs = s.inputs := rfl
@[simp] theorem setRef_draws (c : Channel) (s : State) : (setRef c s).draws = s.draws := rfl
@[simp] theorem setRef_outReply (c : Channel) (s : State) : (setRef c s).outReply = s.outReply := rfl
@[simp] theorem setRef_outAdcStart (c : Channel) (s : State) : (setRef c s).outAdcStart = s.outAdcStart := rfl

/-! ### selectInput -/

@[simp] theorem selectInput_frameMem (c : Channel) (s : State) : (selectInput c s).frameMem = s.frameMem := rfl
@[simp] theorem selectInput_active (c : Channel) (s : State) : (selectInput c s).active = s.active := rfl
@[simp] theorem selectInput_cur (c : Channel) (s : State) : (selectInput c s).cur = s.cur := rfl
@[simp] theorem selectInput_tx (c : Channel) (s : State) : (selectInput c s).tx = s.tx := rfl
@[simp] theorem selectInput_stillBlinking (c : Channel) (s : State) : (selectInput c s).stillBlinking = s.stillBlinking := rfl
@[simp] theorem selectInput_indMode (c : Channel) (s : State) : (selectInput c s).indMode = s.indMode := rfl
@[simp] theorem selectInput_blinkEnable (c : Channel) (s : State) : (selectInput c s).blinkEnable = s.blinkEnable := rfl
@[simp] theorem selectInput_relayOpen (c : Channel) (s : State) : (selectInput c s).relayOpen = s.relayOpen := rfl
@[simp] theorem selectInput_tickPending (c : Channel) (s : State) : (selectInput c s).tickPending = s.tickPending := rfl
@[simp] theorem selectInput_seq (c : Channel) (s : State) : (selectInput c s).seq = s.seq := rfl
@[simp] theorem selectInput_ch (c : Channel) (s : State) : (selectInput c s).ch = s.ch := rfl
@[simp] theorem selectInput_adcRef (c : Channel) (s : State) : (selectInput c s).adcRef = s.adcRef := rfl
@[simp] theorem selectInput_adcMux (c : Channel) (s : State) : (selectInput c s).adcMux = Config.chInput c := rfl
@[simp] theorem selectInput_dacSetpoint (c : Channel) (s : State) : (selectInput c s).dacSetpoint = s.dacSetpoint := rfl
@[simp] theorem selectInput_blinkOn (c : Channel) (s : State) : (selectInput c s).blinkOn = s.blinkOn := rfl
@[simp] theorem selectInput_inputs (c : Channel) (s : State) : (selectInput c s).inputs = s.inputs := rfl
@[simp] theorem selectInput_draws (c : Channel) (s : State) : (selectInput c s).draws = s.draws := rfl
@[simp] theorem selectInput_outReply (c : Channel) (s : State) : (selectInput c s).outReply = s.outReply := rfl
@[simp] theorem selectInput_outAdcStart (c : Channel) (s : State) : (selectInput c s).outAdcStart = s.outAdcStart := rfl

/-! ### startConversion -/

@[simp] theorem startConversion_frameMem (s : State) : (startConversion s).frameMem = s.frameMem := rfl
@[simp] theorem startConversion_active (s : State) : (startConversion s).active = s.active := rfl
@[simp] theorem startConversion_cur (s : State) : (startConversion s).cur = s.cur := rfl
@[simp] theorem startConversion_tx (s : State) : (startConversion s).tx = s.tx := rfl
@[simp] theorem startConversion_stillBlinking (s : State) : (startConversion s).stillBlinking = s.stillBlinking := rfl
@[simp] theorem startConversion_indMode (s : State) : (startConversion s).indMode = s.indMode := rfl
@[simp] theorem startConversion_blinkEnable (s : State) : (startConversion s).blinkEnable = s.blinkEnable := rfl
@[simp] theorem startConversion_relayOpen (s : State) : (startConversion s).relayOpen = s.relayOpen := rfl
@[simp] theorem startConversion_tickPending (s : State) : (startConversion s).tickPending = s.tickPending := rfl
@[simp] theorem startConversion_seq (s : State) : (startConversion s).seq = s.seq := rfl
@[simp] theorem startConversion_ch (s : State) : (startConversion s).ch = s.ch := rfl
@[simp] theorem startConversion_adcRef (s : State) : (startConversion s).adcRef = s.adcRef := rfl
@[simp] theorem startConversion_adcMux (s : State) : (startConversion s).adcMux = s.adcMux := rfl
@[simp] theorem startConversion_dacSetpoint (s : State) : (startConversion s).dacSetpoint = s.dacSetpoint := rfl
@[simp] theorem startConversion_blinkOn (s : State) : (startConversion s).blinkOn = s.blinkOn := rfl
@[simp] theorem startConversion_inputs (s : State) : (startConversion s).inputs = s.inputs := rfl
@[simp] theorem startConversion_draws (s : State) : (startConversion s).draws = s.draws := rfl
@[simp] theorem startConversion_outReply (s : State) : (startConversion s).outReply = s.outReply := rfl
@[simp] theorem startConversion_outAdcStart (s : State) : (startConversion s).outAdcStart = true := rfl

/-! ### frameWrite -/

@[simp] theorem frameWrite_active (s : State) (sl : Slot) (c : Channel) (v : Sample) : (frameWrite s sl c v).active = s.active := rfl
@[simp] theorem frameWrite_cur (s : State) (sl : Slot) (c : Channel) (v : Sample) : (frameWrite s sl c v).cur = s.cur := rfl
@[simp] theorem frameWrite_tx (s : State) (sl : Slot) (c : Channel) (v : Sample) : (frameWrite s sl c v).tx = s.tx := rfl
@[simp] theorem frameWrite_stillBlinking (s : State) (sl : Slot) (c : Channel) (v : Sample) : (frameWrite s sl c v).stillBlinking = s.stillBlinking := rfl
@[simp] theorem frameWrite_indMode (s : State) (sl : Slot) (c : Channel) (v : Sample) : (frameWrite s sl c v).indMode = s.indMode := rfl
@[simp] theorem frameWrite_blinkEnable (s : State) (sl : Slot) (c : Channel) (v : Sample) : (frameWrite s sl c v).blinkEnable = s.blinkEnable := rfl
@[simp] theorem frameWrite_relayOpen (s : State) (sl : Slot) (c : Channel) (v : Sample) : (frameWrite s sl c v).relayOpen = s.relayOpen := rfl
@[simp] theorem frameWrite_tickPending (s : State) (sl : Slot) (c : Channel) (v : Sample) : (frameWrite s sl c v).tickPending = s.tickPending := rfl
@[simp] theorem frameWrite_seq (s : State) (sl : Slot) (c : Channel) (v : Sample) : (frameWrite s sl c v).seq = s.seq := rfl
@[simp] theorem frameWrite_ch (s : State) (sl : Slot) (c : Channel) (v : Sample) : (frameWrite s sl c v).ch = s.ch := rfl
@[simp] theorem frameWrite_adcRef (s : State) (sl : Slot) (c : Channel) (v : Sample) : (frameWrite s sl c v).adcRef = s.adcRef := rfl
@[simp] theorem frameWrite_adcMux (s : State) (sl : Slot) (c : Channel) (v : Sample) : (frameWrite s sl c v).adcMux = s.adcMux := rfl
@[simp] theorem frameWrite_dacSetpoint (s : State) (sl : Slot) (c : Channel) (v : Sample) : (frameWrite s sl c v).dacSetpoint = s.dacSetpoint := rfl
@[simp] theorem frameWrite_blinkOn (s : State) (sl : Slot) (c : Channel) (v : Sample) : (frameWrite s sl c v).blinkOn = s.blinkOn := rfl
@[simp] theorem frameWrite_inputs (s : State) (sl : Slot) (c : Channel) (v : Sample) : (frameWrite s sl c v).inputs = s.inputs := rfl
@[simp] theorem frameWrite_draws (s : State) (sl : Slot) (c : Channel) (v : Sample) : (frameWrite s sl c v).draws = s.draws := rfl
@[simp] theorem frameWrite_outReply (s : State) (sl : Slot) (c : Channel) (v : Sample) : (frameWrite s sl c v).outReply = s.outReply := rfl
@[simp] theorem frameWrite_outAdcStart (s : State) (sl : Slot) (c : Channel) (v : Sample) : (frameWrite s sl c v).outAdcStart = s.outAdcStart := rfl

end Sys2Proof.Machine
end

