-- ==== Sys2Proof/Laws/Frame.lean ====
section
/-! SUPPORT. The frame space: addresses, bytes and samples, and what FrameWrite does to each. -/

namespace Sys2Proof.Machine

/-- The address of a byte is in the frame space. -/
theorem frameAddr_lt (sl : Slot) (o : Offset) : frameAddr sl o < Config.frameSpaceBytes :=
  (sl ++ o).isLt

/-- Two bytes with one address are one byte. -/
theorem frameAddr_inj {sl sl' : Slot} {o o' : Offset} :
    frameAddr sl o = frameAddr sl' o' ↔ sl = sl' ∧ o = o' := by
  constructor
  · intro h
    have h : sl ++ o = sl' ++ o' := BitVec.eq_of_toNat_eq h
    revert h
    revert sl sl' o o'
    decide
  · rintro ⟨rfl, rfl⟩
    rfl

theorem lowOffset_ne_highOffset (c c' : Channel) : lowOffset c ≠ highOffset c' := by
  revert c c'
  decide

theorem lowOffset_inj {c c' : Channel} : lowOffset c = lowOffset c' ↔ c = c' := by
  revert c c'
  decide

theorem highOffset_inj {c c' : Channel} : highOffset c = highOffset c' ↔ c = c' := by
  revert c c'
  decide

/-- Every offset is the low or the high byte of one channel. -/
theorem offset_cases (o : Offset) :
    (o.getLsbD 0 = false ∧ o = lowOffset (o.extractLsb' 1 3)) ∨
    (o.getLsbD 0 = true ∧ o = highOffset (o.extractLsb' 1 3)) := by
  revert o
  decide

theorem lowByte_append (h l : Byte) : lowByte (h ++ l) = l := by
  apply BitVec.eq_of_getLsbD_eq
  intro i hi
  simp only [lowByte, BitVec.getLsbD_extractLsb', BitVec.getLsbD_append]
  simp [hi]

theorem highByte_append (h l : Byte) : highByte (h ++ l) = h := by
  apply BitVec.eq_of_getLsbD_eq
  intro i hi
  simp only [highByte, BitVec.getLsbD_extractLsb', BitVec.getLsbD_append]
  simp [hi]

theorem append_bytes (v : Sample) : highByte v ++ lowByte v = v := by
  apply BitVec.eq_of_getLsbD_eq
  intro i hi
  simp only [highByte, lowByte, BitVec.getLsbD_append, BitVec.getLsbD_extractLsb']
  by_cases h : i < 8
  · simp [h]
  · have : i - 8 < 8 := by omega
    have e : 8 + (i - 8) = i := by omega
    simp [h, this, e]

/-- The low byte of a sample is the byte at its even offset. -/
@[simp] theorem lowByte_sample (s : State) (sl : Slot) (c : Channel) :
    lowByte (sample s sl c) = frameRead s sl (lowOffset c) := lowByte_append _ _

/-- The high byte of a sample is the byte at its odd offset. -/
@[simp] theorem highByte_sample (s : State) (sl : Slot) (c : Channel) :
    highByte (sample s sl c) = frameRead s sl (highOffset c) := highByte_append _ _

/-- A read of the frame space depends on its bytes alone. -/
theorem frameRead_congr {s t : State} (h : s.frameMem = t.frameMem) (sl : Slot) (o : Offset) :
    frameRead s sl o = frameRead t sl o := by
  unfold frameRead
  rw [h]

theorem sample_congr {s t : State} (h : s.frameMem = t.frameMem) (sl : Slot) (c : Channel) :
    sample s sl c = sample t sl c := by
  simp only [sample, frameRead_congr h]

@[simp] theorem frameRead_frameWrite_low (s : State) (sl : Slot) (c : Channel) (v : Sample) :
    frameRead (frameWrite s sl c v) sl (lowOffset c) = lowByte v := by
  have h : frameAddr sl (lowOffset c) ≠ frameAddr sl (highOffset c) := by
    simp [frameAddr_inj, lowOffset_ne_highOffset]
  simp [frameRead, frameWrite, Memory.read_write_other _ _ h]

@[simp] theorem frameRead_frameWrite_high (s : State) (sl : Slot) (c : Channel) (v : Sample) :
    frameRead (frameWrite s sl c v) sl (highOffset c) = highByte v := by
  simp [frameRead, frameWrite]

/-- FrameWrite leaves every byte of every other sample alone. -/
theorem frameRead_frameWrite_other (s : State) {sl sl' : Slot} {c : Channel} (v : Sample) {o : Offset}
    (h : (sl', o.extractLsb' 1 3) ≠ (sl, c)) :
    frameRead (frameWrite s sl c v) sl' o = frameRead s sl' o := by
  have hl : frameAddr sl' o ≠ frameAddr sl (lowOffset c) := by
    intro e
    obtain ⟨rfl, rfl⟩ := frameAddr_inj.mp e
    exact h (by revert c; decide +revert)
  have hh : frameAddr sl' o ≠ frameAddr sl (highOffset c) := by
    intro e
    obtain ⟨rfl, rfl⟩ := frameAddr_inj.mp e
    exact h (by revert c; decide +revert)
  simp [frameRead, frameWrite, Memory.read_write_other _ _ hl, Memory.read_write_other _ _ hh]

/-- The written sample. -/
@[simp] theorem sample_frameWrite_self (s : State) (sl : Slot) (c : Channel) (v : Sample) :
    sample (frameWrite s sl c v) sl c = v := by
  simp [sample, append_bytes]

/-- FrameWrite leaves every other sample alone. -/
theorem sample_frameWrite_other (s : State) {sl sl' : Slot} {c c' : Channel} (v : Sample)
    (h : (sl', c') ≠ (sl, c)) : sample (frameWrite s sl c v) sl' c' = sample s sl' c' := by
  have hl : (lowOffset c').extractLsb' 1 3 = c' := by revert c'; decide +revert
  have hh : (highOffset c').extractLsb' 1 3 = c' := by revert c'; decide +revert
  simp [sample, frameRead_frameWrite_other s v (o := lowOffset c') (by rwa [hl]),
    frameRead_frameWrite_other s v (o := highOffset c') (by rwa [hh])]

/-- FrameWrite keeps the canonical form. -/
theorem wf_frameWrite {s : State} (sl : Slot) (c : Channel) (v : Sample) (h : Memory.wf s.frameMem) :
    Memory.wf (frameWrite s sl c v).frameMem :=
  Memory.wf_write _ (Memory.wf_write _ h (frameAddr_lt _ _)) (frameAddr_lt _ _)

/-- The reset memory is canonical. -/
theorem wf_reset : Memory.wf State.reset.frameMem := by simp [State.reset, Memory.wf]

/-- The slot the sequencer writes is not the one the handler reads. -/
theorem inactiveSlot_ne (s : State) : inactiveSlot s ≠ s.active := by
  unfold inactiveSlot
  generalize s.active = a
  revert a
  decide

end Sys2Proof.Machine
end

