-- ==== Sys2Proof/Laws/Ops.lean ====
section
/-! SUPPORT. One lemma per shared operation that says everything it can do, and the inversion of an event: the
proofs cite these instead of unfolding the meanings. -/

namespace Sys2Proof.Machine

/-! ## Arithmetic -/

theorem nextCursor_eq (c : Offset) : nextCursor c = c + 1#4 := by
  revert c
  decide

theorem nextCursor_toNat (c : Offset) : (nextCursor c).toNat = (c.toNat + 1) % 16 := by
  simp [nextCursor_eq, BitVec.toNat_add]

theorem sampleOfResult_toNat (r : AdcResult) : (sampleOfResult r).toNat = r.toNat / 4 := by
  simp [sampleOfResult, BitVec.toNat_ushiftRight, Nat.shiftRight_eq_div_pow]

theorem flip_flip (a : Slot) : a ^^^ 1#1 ^^^ 1#1 = a := by
  revert a
  decide

/-! ## Pieces of an exchange -/

/-- The entry of a handler after the reply: what every opcode does before its own arm. -/
theorem handlerEntry_sendReply_eq (s : State) :
    handlerEntry (sendReply s) =
      { s with
        outReply := some s.tx, stillBlinking := false,
        blinkEnable := if s.stillBlinking then false else s.blinkEnable,
        indMode := if s.stillBlinking then .off else s.indMode } := by
  cases h : s.stillBlinking <;> simp [handlerEntry, sendReply, h]

theorem stageNext_eq (s : State) :
    stageNext s = { s with tx := frameRead s s.active s.cur, cur := nextCursor s.cur } := rfl

theorem exec_normal (s : State) :
    exec .normal s = .next (stageNext (handlerEntry (sendReply s))) := rfl

theorem exec_receiveData (s : State) :
    exec .receiveData s = .next (stageNext (resetCursor (handlerEntry (sendReply s)))) := rfl

theorem exec_fireRelay (s : State) : exec .fireRelay s = .next (trip (handlerEntry (sendReply s))) := rfl

theorem exec_ledOn (s : State) :
    exec .ledOn s = .next (setIndMode (handlerEntry (sendReply s)) .on) := rfl

theorem exec_ledOff (s : State) :
    exec .ledOff s = .next (setIndMode (handlerEntry (sendReply s)) .off) := rfl

theorem exec_nop (b : Byte) (s : State) : exec (.nop b) s = .next (handlerEntry (sendReply s)) := rfl

/-! ## The sequencer's steps -/

theorem setup_eq (s : State) :
    setup s = { s with
      adcRef := chRef s.ch, adcMux := Config.chInput s.ch, outAdcStart := true, seq := .wait } := rfl

theorem writeInactive_eq (s : State) (c : Channel) (v : Sample) :
    writeInactive s c v = frameWrite s (s.active ^^^ 1#1) c v := rfl

/-- STORE: one sample of the inactive slot, and the place in the sweep. -/
theorem store_eq (r : AdcResult) (s : State) :
    store r s = { s with
      frameMem := (frameWrite s (inactiveSlot s) s.ch (sampleOfResult r)).frameMem,
      ch := if s.ch = lastChannel then s.ch else s.ch + 1#3,
      seq := if s.ch = lastChannel then .monitor else .setup } := by
  unfold store writeInactive frameWrite
  split <;> simp_all

/-- The monitor: the setpoint always, the relay when a check fires. -/
theorem monitorWith_eq (p : MonitorParams) (s : State) :
    monitorWith p s = { s with
      dacSetpoint := p.setpoint (p.supplyEstimate (sample s (inactiveSlot s) cell0Channel)),
      relayOpen := s.relayOpen
        || decide (p.supplyEstimate (sample s (inactiveSlot s) cell0Channel) ≤ p.vMin)
        || decide (p.tMax ≤ p.temperature (sample s (inactiveSlot s) tempChannel)) } := by
  unfold monitorWith trip
  by_cases hv : p.supplyEstimate (sample s (inactiveSlot s) cell0Channel) ≤ p.vMin <;>
    by_cases ht : p.tMax ≤ p.temperature (sample s (inactiveSlot s) tempChannel) <;>
    simp only [hv, ht, if_true, if_false, decide_true, decide_false, Bool.or_true, Bool.or_false]

theorem publishStep_eq (s : State) :
    publishStep s = { s with active := s.active ^^^ 1#1, seq := .idle } := rfl

/-- SEQ's turn, by the place in the sweep. -/
theorem seqStep_cases (s : State) :
    (s.seq = .idle ∧ s.tickPending = false ∧ seqStep s = s) ∨
    (s.seq = .idle ∧ s.tickPending = true ∧ seqStep s = sweepStart s) ∨
    (s.seq = .setup ∧ seqStep s = setup s) ∨
    (s.seq = .wait ∧ seqStep s = s) ∨
    (s.seq = .monitor ∧ seqStep s = monitorStep s) ∨
    (s.seq = .publish ∧ seqStep s = publishStep s) := by
  cases h : s.seq <;> cases hp : s.tickPending <;> simp [seqStep, h, hp]

/-- A completion: STORE in WAIT, nothing elsewhere. -/
theorem adcDone_cases (r : AdcResult) (s : State) :
    (s.seq = .wait ∧ adcDone r s = store r s) ∨ (s.seq ≠ .wait ∧ adcDone r s = s) := by
  cases h : s.seq <;> simp [adcDone, h]

/-! ## Inversions -/

/-- Every opcode answers a next state, by its arm. -/
theorem exec_next_cases {i : Instr} {s t : State} (h : exec i s = .next t) :
    (i = .normal ∧ t = stageNext (handlerEntry (sendReply s))) ∨
    (i = .receiveData ∧ t = stageNext (resetCursor (handlerEntry (sendReply s)))) ∨
    (i = .fireRelay ∧ t = trip (handlerEntry (sendReply s))) ∨
    (i = .ledOn ∧ t = setIndMode (handlerEntry (sendReply s)) .on) ∨
    (i = .ledOff ∧ t = setIndMode (handlerEntry (sendReply s)) .off) ∨
    (∃ b, i = .nop b ∧ t = handlerEntry (sendReply s)) := by
  cases i with
  | normal => exact .inl ⟨rfl, (Host.Outcome.next.inj ((exec_normal s).symm.trans h)).symm⟩
  | receiveData => exact .inr (.inl ⟨rfl, (Host.Outcome.next.inj ((exec_receiveData s).symm.trans h)).symm⟩)
  | fireRelay =>
    exact .inr (.inr (.inl ⟨rfl, (Host.Outcome.next.inj ((exec_fireRelay s).symm.trans h)).symm⟩))
  | ledOn =>
    exact .inr (.inr (.inr (.inl ⟨rfl, (Host.Outcome.next.inj ((exec_ledOn s).symm.trans h)).symm⟩)))
  | ledOff =>
    exact .inr (.inr (.inr (.inr (.inl
      ⟨rfl, (Host.Outcome.next.inj ((exec_ledOff s).symm.trans h)).symm⟩))))
  | nop b =>
    exact .inr (.inr (.inr (.inr (.inr
      ⟨b, rfl, (Host.Outcome.next.inj ((exec_nop b s).symm.trans h)).symm⟩))))

/-- What an event that answers a next state did. -/
theorem deliver_next_cases {e : Event} {s t : State} (h : deliver e s = .next t) :
    (e = .reset ∧ t = resetBlock s) ∨
    (∃ b, e = .exchange b ∧ exec (decode b) s = .next t) ∨
    (e = .tick ∧ t = setTickPending s) ∨
    (e = .seq ∧ t = seqStep s) ∨
    (∃ r, e = .adcDone r ∧ t = adcDone r s) ∨
    (∃ level, e = .blink level ∧ t = blinkTimer level s) := by
  cases e with
  | reset => exact .inl ⟨rfl, (Host.Outcome.next.inj h).symm⟩
  | exchange b => exact .inr (.inl ⟨b, rfl, h⟩)
  | overrun b => cases h
  | tick => exact .inr (.inr (.inl ⟨rfl, (Host.Outcome.next.inj h).symm⟩))
  | seq => exact .inr (.inr (.inr (.inl ⟨rfl, (Host.Outcome.next.inj h).symm⟩)))
  | adcDone r => exact .inr (.inr (.inr (.inr (.inl ⟨r, rfl, (Host.Outcome.next.inj h).symm⟩))))
  | blink level => exact .inr (.inr (.inr (.inr (.inr ⟨level, rfl, (Host.Outcome.next.inj h).symm⟩))))

/-- The decoder, by the value of the byte. -/
theorem decode_cases (b : Byte) :
    (b = 0x00#8 ∧ decode b = .normal) ∨ (b = 0x01#8 ∧ decode b = .receiveData) ∨
    (b = 0x02#8 ∧ decode b = .fireRelay) ∨ (b = 0x03#8 ∧ decode b = .ledOn) ∨
    (b = 0x04#8 ∧ decode b = .ledOff) ∨ (5 ≤ b.toNat ∧ decode b = .nop b) := by
  revert b
  decide

/-! ## Runs -/

/-- A run whose first pending event answers a next state goes on from there. -/
theorem runSteps_pending (k : Nat) {s t : State} {e : Event} {es : List Event} (h : s.inputs = e :: es)
    (hd : deliver e (beginStep { s with inputs := es }) = .next t) :
    runSteps (k + 1) s = runSteps k t := by
  have hs : step s = .next t := by simpa [step, nextEvent, h] using hd
  simp only [runSteps, hs]

/-- A run of `j + k` steps is one of `j` and then one of `k`. -/
theorem runSteps_add (j k : Nat) (s t : State) (h : runSteps j s = .next t) :
    runSteps (j + k) s = runSteps k t := by
  induction j generalizing s with
  | zero =>
    cases h
    rw [Nat.zero_add]
  | succ j ih =>
    rw [Nat.succ_add]
    simp only [runSteps] at h ⊢
    split at h
    · next u hu => simpa [hu] using ih u h
    · cases h
    · cases h

end Sys2Proof.Machine
end

