-- ==== Sys2Proof/Laws/PerInstr.lean ====
section
/-! SUPPORT. Statements made per opcode. -/

namespace Sys2Proof.Laws.RoundTrip

/-- A well-formed opcode is read back from the byte that encodes it (30_encoding.md R91, R105). -/
def Statement (i : Instr) : Prop := i.wellFormed = true → decode (encode i) = i

theorem normal : Statement .normal := fun _ => rfl

theorem receiveData : Statement .receiveData := fun _ => rfl

theorem fireRelay : Statement .fireRelay := fun _ => rfl

theorem ledOn : Statement .ledOn := fun _ => rfl

theorem ledOff : Statement .ledOff := fun _ => rfl

theorem nop (b : Byte) : Statement (.nop b) := by
  unfold Statement
  revert b
  decide

end Sys2Proof.Laws.RoundTrip
end

