-- ==== Sys2Proof/Tests/Slice0.lean ====
section
/-! SUPPORT. The model's own tests: small cases whose expected values are those of 95_test_vectors.md (derived
there by hand from the rules) or of the rules themselves, and one witness for the hypotheses of each
statement. -/

namespace Sys2Proof.Tests

open Sys2Proof Sys2Proof.Machine

/-! ## Helpers -/

/-- The next state, if there is one. -/
def nextOf : Host.Outcome State Fault Refusal → Option State
  | .next t => some t
  | .fault _ => none
  | .refused _ => none

/-- Fill a slot with samples, in channel order. -/
def fill (sl : Slot) (vs : List Sample) (s : State) : State :=
  vs.zipIdx.foldl (fun t v => frameWrite t sl (BitVec.ofNat 3 v.2) v.1) s

/-- Frame X of 95_test_vectors.md. -/
def frameX : List Sample :=
  [0x0123#16, 0x0200#16, 0x03FF#16, 0x0001#16, 0x02AA#16, 0x0155#16, 0x0300#16, 0x003C#16]

/-- Frame Y of 95_test_vectors.md. -/
def frameY : List Sample :=
  [0x0124#16, 0x01FF#16, 0x0300#16, 0x0002#16, 0x02AB#16, 0x0154#16, 0x02FF#16, 0x003D#16]

/-- The state S_5 of 95_test_vectors.md, with frame X in slot B. -/
def s5 : State :=
  { fill 1#1 frameX State.reset with
    active := 1#1, cur := 5#4, tx := 0xFF#8, stillBlinking := false, indMode := .off, blinkEnable := false }

/-- A block in the middle of a sweep at channel `c`. -/
def sweeping (q : SeqState) (c : Channel) : State :=
  { State.reset with seq := q, ch := c, adcRef := chRef c, adcMux := Config.chInput c }

/-- The example instantiation of 95_test_vectors.md section 2.0. -/
def exampleMonitor : MonitorParams where
  supplyEstimate v := (v.toNat : Rat) / 100
  temperature v := (v.toNat : Rat) / 10
  setpoint vs := BitVec.ofNat Config.dacWidth ((vs * 20).floor.toNat % 256)
  vMin := 3
  tMax := 100

/-- A block about to run the monitor on a given CELL0 and TEMP sample. -/
def monitoring (cell0 temp : Sample) : State :=
  frameWrite (frameWrite { State.reset with seq := .monitor, ch := 7#3 } 1#1 2#3 cell0) 1#1 0#3 temp

/-! ## Encoding -/

/-- R91: the bytes 0 to 4 of a NOP would spell other opcodes. -/
theorem test_nop_below_five_is_ill_formed :
    (Instr.nop 0x04#8).wellFormed = false ∧ (Instr.nop 0x05#8).wellFormed = true := by decide

/-- R91, bit by bit: 0000_0000. -/
theorem test_decode_normal : decode 0b00000000#8 = .normal := by decide
/-- R91: 0000_0001. -/
theorem test_decode_receiveData : decode 0b00000001#8 = .receiveData := by decide
/-- R91: 0000_0010. -/
theorem test_decode_fireRelay : decode 0b00000010#8 = .fireRelay := by decide
/-- R91: 0000_0011. -/
theorem test_decode_ledOn : decode 0b00000011#8 = .ledOn := by decide
/-- R91: 0000_0100. -/
theorem test_decode_ledOff : decode 0b00000100#8 = .ledOff := by decide
/-- R105: lowest and highest NOP. -/
theorem test_decode_nop :
    decode 0b00000101#8 = .nop 0b00000101#8 ∧ decode 0b11111111#8 = .nop 0b11111111#8 := by decide

/-- R105, V23: every byte selects exactly one row of the table, the row of the opcode it decodes to. -/
theorem test_every_byte_selects_one_row :
    ∀ b : Byte, (opcodeRows.filter (fun r => r.selects b)).map OpcodeRow.mnemonic = [(decode b).mnemonic] := by
  decide

/-- The table's words, with bits above the byte refused. -/
theorem test_table_words :
    decodeTableWord 8 2 = some .fireRelay ∧ decodeTableWord 8 255 = some (.nop 0xFF#8) ∧
      decodeTableWord 8 256 = none ∧ decodeTableWord 16 1 = none := by decide

/-! ## The step -/

/-- A placed opcode runs as the first step after reset: RECEIVEDATA leaves `cur = 1` (V20f). -/
theorem test_first_step_after_reset :
    (nextOf (step (State.reset.withFetchWord 8 1))).map (fun t => (t.cur, t.stillBlinking, t.inputs)) =
      some (1#4, false, []) := by decide

/-- V44: reset in mid-sweep. -/
theorem test_reset_in_mid_sweep :
    (nextOf (deliver .reset { sweeping .setup 3#3 with relayOpen := true, stillBlinking := false })).map
      (fun t => (t.seq, t.ch, t.relayOpen, t.stillBlinking)) = some (.idle, 0#3, false, true) := by decide

/-! ## Memory and frame store -/

/-- V02: low byte at the even offset. -/
theorem test_ser_low_byte_first :
    (frameRead (frameWrite State.reset 0#1 3#3 0xABCD#16) 0#1 6#4,
      frameRead (frameWrite State.reset 0#1 3#3 0xABCD#16) 0#1 7#4) = (0xCD#8, 0xAB#8) := by decide

/-- V01: the serialization of frame X. -/
theorem test_payload_of_frame_x :
    payload s5 = [0x23#8, 0x01#8, 0x00#8, 0x02#8, 0xFF#8, 0x03#8, 0x01#8, 0x00#8,
      0xAA#8, 0x02#8, 0x55#8, 0x01#8, 0x00#8, 0x03#8, 0x3C#8, 0x00#8] := by decide

/-- V03, V04: the write goes to the slot that is not active; bytes equal to 0x00 are not listed. -/
theorem test_write_inactive :
    (writeInactive State.reset 2#3 0x03FF#16).frameMem = [(20, 0xFF#8), (21, 0x03#8)] ∧
      (writeInactive { State.reset with active := 1#1 } 2#3 0x0300#16).frameMem = [(5, 0x03#8)] := by
  decide

/-- V07: the two slots swap roles. -/
theorem test_publish_swaps_roles :
    (readActive (fill 0#1 frameY s5) 8#4, readActive (publish (fill 0#1 frameY s5)) 8#4) =
      (0xAA#8, 0xAB#8) := by decide

/-! ## Opcodes -/

/-- V13. -/
theorem test_normal :
    (nextOf (exec .normal s5)).map (fun t => (t.outReply, t.tx, t.cur)) = some (some 0xFF#8, 0x03#8, 6#4) := by
  decide

/-- V12: the wrap from 15 to 0. -/
theorem test_normal_wraps :
    (nextOf (exec .normal { s5 with cur := 15#4, tx := 0x3C#8 })).map (fun t => (t.outReply, t.tx, t.cur)) =
      some (some 0x3C#8, 0x00#8, 0#4) := by decide

/-- V14. -/
theorem test_receiveData :
    (nextOf (exec .receiveData s5)).map (fun t => (t.outReply, t.tx, t.cur)) =
      some (some 0xFF#8, 0x23#8, 1#4) := by decide

/-- V15. -/
theorem test_fireRelay :
    (nextOf (exec .fireRelay s5)).map (fun t => (t.outReply, t.relayOpen, t.tx, t.cur)) =
      some (some 0xFF#8, true, 0xFF#8, 5#4) := by decide

/-- V17. -/
theorem test_ledOn :
    (nextOf (exec .ledOn s5)).map (fun t => (t.outReply, t.indMode, led t)) =
      some (some 0xFF#8, .on, true) := by decide

/-- V20b: as the first exchange, the entry sets OFF and the opcode then sets ON. -/
theorem test_ledOn_as_first_exchange :
    (nextOf (exec .ledOn State.reset)).map (fun t => (t.indMode, t.blinkEnable, t.stillBlinking)) =
      some (.on, false, false) := by decide

/-- V18. -/
theorem test_ledOff :
    (nextOf (exec .ledOff { s5 with indMode := .on })).map (fun t => (t.outReply, t.indMode, led t)) =
      some (some 0xFF#8, .off, false) := by decide

/-- V19d: nothing changes but the reply. -/
theorem test_nop : (nextOf (exec (.nop 0xFF#8) s5)).map (fun t => (t.outReply, t.tx, t.cur, t.indMode)) =
    some (some 0xFF#8, 0xFF#8, 5#4, .off) := by decide

/-- V20a: as the first exchange it still ends the blinking. -/
theorem test_nop_as_first_exchange :
    (nextOf (exec (.nop 0xFF#8) State.reset)).map (fun t => (t.indMode, t.blinkEnable, t.relayOpen)) =
      some (.off, false, false) := by decide

/-! ## Sequencer -/

/-- V26: SWEEP_START. -/
theorem test_sweep_start :
    (nextOf (deliver .seq { State.reset with tickPending := true, ch := 7#3 })).map
      (fun t => (t.seq, t.ch, t.tickPending)) = some (.setup, 0#3, false) := by decide

/-- V26: SETUP of channel 1 sets MID. -/
theorem test_setup :
    (nextOf (deliver .seq { State.reset with seq := .setup, ch := 1#3 })).map
      (fun t => (t.seq, t.adcRef, t.outAdcStart)) = some (.wait, .mid, true) := by decide

/-- V25: the division truncates and an out-of-contract result is accepted. -/
theorem test_store_arithmetic :
    [0#16, 3#16, 4#16, 7#16, 4092#16, 4095#16, 0xFFFF#16].map sampleOfResult =
      [0x0000#16, 0x0000#16, 0x0001#16, 0x0001#16, 0x03FF#16, 0x03FF#16, 0x3FFF#16] := by decide

/-- V25: the place in the sweep after a store. -/
theorem test_store :
    (nextOf (deliver (.adcDone 4092#16) (sweeping .wait 2#3))).map
      (fun t => (sample t 1#1 2#3, sample t 0#1 2#3, t.ch, t.seq)) =
      some (0x03FF#16, 0x0000#16, 3#3, .setup) := by decide

/-- V26: after channel 7 the monitor runs next and `ch` stays. -/
theorem test_store_of_the_last_channel :
    (nextOf (deliver (.adcDone 240#16) (sweeping .wait 7#3))).map (fun t => (sample t 1#1 7#3, t.ch, t.seq)) =
      some (0x003C#16, 7#3, .monitor) := by decide

/-- V29c: a completion with nothing outstanding is ignored. -/
theorem test_late_completion : deliver (.adcDone 4092#16) State.reset = .next State.reset := by rfl

/-! ## Monitor -/

/-- What the two checks decide on a block about to run the monitor, in volts and degrees. -/
theorem relayOpen_monitoring (cell0 temp : Sample) :
    (monitorWith exampleMonitor (monitoring cell0 temp)).relayOpen = true ↔
      (cell0.toNat : Rat) / 100 ≤ 3 ∨ 100 ≤ (temp.toNat : Rat) / 10 := by
  have hi : inactiveSlot (monitoring cell0 temp) = 1#1 := by simp [inactiveSlot, monitoring, State.reset]
  have h2 : sample (monitoring cell0 temp) (inactiveSlot (monitoring cell0 temp)) cell0Channel = cell0 := by
    rw [hi, monitoring, sample_frameWrite_other _ _ (by decide), cell0Channel, sample_frameWrite_self]
  have h0 : sample (monitoring cell0 temp) (inactiveSlot (monitoring cell0 temp)) tempChannel = temp := by
    rw [hi, monitoring, tempChannel, sample_frameWrite_self]
  have hr : (monitoring cell0 temp).relayOpen = false := by simp [monitoring, State.reset]
  simp [monitorWith_eq, h2, h0, hr, exampleMonitor]

/-- V30 a and b, the source's S5: 2.9 V trips, 3.1 V does not. -/
theorem test_monitor_undervoltage :
    (monitorWith exampleMonitor (monitoring 290#16 0#16)).relayOpen = true ∧
      ¬ (monitorWith exampleMonitor (monitoring 310#16 0#16)).relayOpen = true := by
  rw [relayOpen_monitoring, relayOpen_monitoring]
  norm_num

/-- V30 c and f: equality trips both checks. -/
theorem test_monitor_equality_trips :
    (monitorWith exampleMonitor (monitoring 300#16 0#16)).relayOpen = true ∧
      (monitorWith exampleMonitor (monitoring 310#16 1000#16)).relayOpen = true := by
  rw [relayOpen_monitoring, relayOpen_monitoring]
  norm_num

/-- V30 d and e, the source's S5: 101 degrees trips, 99 does not. -/
theorem test_monitor_overtemperature :
    (monitorWith exampleMonitor (monitoring 310#16 1010#16)).relayOpen = true ∧
      ¬ (monitorWith exampleMonitor (monitoring 310#16 990#16)).relayOpen = true := by
  rw [relayOpen_monitoring, relayOpen_monitoring]
  norm_num

/-- V30 a: the setpoint of 2.9 V is 58. -/
theorem test_monitor_setpoint :
    (monitorWith exampleMonitor (monitoring 290#16 0#16)).dacSetpoint = BitVec.ofNat Config.dacWidth 58 := by
  have h2 : sample (monitoring 290#16 0#16) (inactiveSlot (monitoring 290#16 0#16)) cell0Channel = 290#16 := by
    decide
  have hf : ((290 : Rat) / 100 * 20).floor = 58 := by
    rw [show (290 : Rat) / 100 * 20 = 58 by norm_num]
    rfl
  simp [monitorWith_eq, h2, exampleMonitor, hf]

/-! ## Witnesses: every hypothesis of a statement can be met -/

/-- DecodeAndEncodeAgree, HostProgramRoundTrip: well-formed opcodes, a NOP at each end of its range among them. -/
theorem witness_well_formed_program :
    ∀ i ∈ [Instr.normal, .receiveData, .fireRelay, .ledOn, .ledOff, .nop 0x05#8, .nop 0xFF#8],
      i.wellFormed = true := by decide

/-- EveryByteIsALegalOpcode: the bytes at both ends, a pending exchange, and the first exchange. -/
theorem witness_legal_bytes :
    5 ≤ (0x05#8).toNat ∧ 5 ≤ (0xFF#8).toNat ∧
      ({ State.reset with inputs := [.exchange 0x05#8] } : State).inputs = [.exchange 0x05#8] ∧
      State.reset.stillBlinking = true := by decide

/-- StepRunsDecodedInstruction, StepDeliversNextEvent: a pending event, and none. -/
theorem witness_pending_event :
    (State.reset.withFetchWord 8 1).inputs = [.exchange 0x01#8] ∧ State.reset.inputs = [] := by decide

/-- OnlyAByteOverrunStops: both cases occur. -/
theorem witness_both_outcomes :
    step { State.reset with inputs := [.overrun 0#8] } = .refused .byteOverrun ∧
      (nextOf (step { State.reset with inputs := [.tick] })).isSome = true := ⟨rfl, by decide⟩

/-- CursorCountsAdvances: a program without RECEIVEDATA that holds NORMAL and another opcode. -/
theorem witness_program_without_receiveData :
    Instr.receiveData ∉ [Instr.normal, .fireRelay, .normal] ∧
      [Instr.normal, .fireRelay, .normal].count .normal = 2 := by decide

/-- PipelineDepthOne: both staging bytes, with a sequencer step and a LEDON between. -/
theorem witness_pipeline :
    (∀ b ∈ [0x00#8, 0x01#8], b.toNat ≤ 1) ∧
      ({ s5 with inputs := [.exchange 0x01#8, .seq, .exchange 0x03#8, .exchange 0xFF#8] } : State).inputs =
        .exchange 0x01#8 :: ([.seq, .exchange 0x03#8] ++ .exchange 0xFF#8 :: []) ∧
      ∀ e ∈ [Event.seq, .exchange 0x03#8], ordinaryEvent e = true ∧ stagingEvent e = false := by decide

/-- ReadFrameStreamsThePayload: a state with READFRAME pending. -/
theorem witness_read_frame :
    ({ s5 with inputs := (readFrameBytes 0xFF#8).map Event.exchange } : State).inputs =
      (readFrameBytes 0xFF#8).map Event.exchange ++ [] := by decide

/-- OnlyReceivedBytesMoveTheCursor: a tick, a NOP, a NORMAL at the wrap, and a RECEIVEDATA, each answering. -/
theorem witness_cursor_events :
    deliver .tick s5 = .next (setTickPending s5) ∧
      (nextOf (deliver (.exchange 0x05#8) s5)).map (fun t => t.cur) = some 5#4 ∧
      (nextOf (deliver (.exchange 0x00#8) { s5 with cur := 15#4 })).map (fun t => t.cur) = some 0#4 ∧
      (nextOf (deliver (.exchange 0x01#8) s5)).map (fun t => t.cur) = some 1#4 :=
  ⟨rfl, by decide, by decide, by decide⟩

/-- SerializationIsLittleEndian, FrameWriteWritesOneSample: offsets 0 and 15 at the two ends of a slot, of the
first and the last channel, and bytes that belong to another sample. -/
theorem witness_offsets :
    (0#4).getLsbD 0 = false ∧ (15#4).getLsbD 0 = true ∧ (0#4).toNat = 2 * (0#3).toNat ∧
      (15#4).toNat = 2 * (7#3).toNat + 1 ∧ ((0#1 : Slot), (14#4).extractLsb' 1 3) ≠ (0#1, 0#3) ∧
      ((1#1 : Slot), (0#4).extractLsb' 1 3) ≠ (0#1, 0#3) := by decide

/-- NoOtherAccessToTheFrameStore: a completion changes a byte of the inactive slot, a PUBLISH step flips, and two
memories can agree on the byte at the cursor and differ elsewhere, in both slots. -/
theorem witness_frame_store_access :
    (nextOf (deliver (.adcDone 4092#16) (sweeping .wait 2#3))).map (fun t => frameRead t 1#1 4#4) =
        some 0xFF#8 ∧
      frameRead (sweeping .wait 2#3) 1#1 4#4 = 0x00#8 ∧
      (nextOf (deliver .seq (sweeping .publish 7#3))).map (fun t => t.active) = some 1#1 ∧
      (frameRead { State.reset with frameMem := [(1, 0x02#8), (16, 0x01#8)] } 0#1 0#4 =
        frameRead State.reset 0#1 0#4) ∧
      (frameRead { State.reset with frameMem := [(1, 0x02#8), (16, 0x01#8)] } 0#1 1#4 ≠
        frameRead State.reset 0#1 1#4) := by decide

/-- SweepStartsOnlyOnAPendingTick and TicksCoalesce: IDLE with and without a pending tick. -/
theorem witness_idle :
    State.reset.seq = .idle ∧ State.reset.tickPending = false ∧
      (setTickPending State.reset).seq = .idle ∧ (setTickPending State.reset).tickPending = true := by decide

/-- SetupStartsOneConversion, StoreKeepsAQuarterOfTheResult, MonitorRefreshesSetpointAndTrips,
PublishFlipsTheSelector, NormalAndPublishDifferInTheStagedByte, LateCompletionIsIgnored: each place in the
sweep, the channels next to the end and at the end among them. -/
theorem witness_sweep_places :
    (sweeping .setup 0#3).seq = .setup ∧ (sweeping .wait 6#3).seq = .wait ∧
      (sweeping .wait 6#3).ch.toNat < 7 ∧ (sweeping .wait 7#3).ch.toNat = 7 ∧
      (sweeping .monitor 7#3).seq = .monitor ∧ (sweeping .publish 7#3).seq = .publish ∧
      (setTickPending (sweeping .publish 7#3)).tickPending = true ∧
      (sweeping .publish 7#3).tickPending = false ∧ State.reset.seq ≠ .wait := by decide

/-- MonitorReadsOnlyTempAndCell0: two states that differ in CURR alone. -/
theorem witness_monitor_inputs :
    sample (monitoring 290#16 5#16) 1#1 0#3 = sample (frameWrite (monitoring 290#16 5#16) 1#1 1#3 7#16) 1#1 0#3 ∧
      sample (monitoring 290#16 5#16) 1#1 2#3 = sample (frameWrite (monitoring 290#16 5#16) 1#1 1#3 7#16) 1#1 2#3 ∧
      sample (monitoring 290#16 5#16) 1#1 1#3 ≠ sample (frameWrite (monitoring 290#16 5#16) 1#1 1#3 7#16) 1#1 1#3 := by
  decide

/-- SequencerStateTable: a turn, a completion and an exchange that answer. -/
theorem witness_sequencer_events :
    deliver .seq (sweeping .wait 0#3) = .next (sweeping .wait 0#3) ∧
      (nextOf (deliver (.adcDone 0#16) (sweeping .wait 7#3))).map (fun t => t.seq) = some .monitor ∧
      sweepEvent (.exchange 0x00#8) = false ∧
      (nextOf (deliver (.exchange 0x00#8) (sweeping .wait 7#3))).map (fun t => t.seq) = some .wait :=
  ⟨rfl, by decide, by decide, by decide⟩

/-- A sweep with an exchange, a tick and a blink inside it. -/
def busySweep (r : Channel → AdcResult) : List Event :=
  .tick :: .seq :: .exchange 0x02#8 :: ((sweepSteps r).tail ++ [.blink true])

/-- WholeSweepPublishesItsFrame: such a sweep, from IDLE with a tick pending. -/
theorem witness_whole_sweep :
    (busySweep (fun _ => 4092#16)).filter sweepEvent = sweepSteps (fun _ => 4092#16) ∧
      (∀ e ∈ busySweep (fun _ => 4092#16), ordinaryEvent e = true) ∧
      ({ setTickPending State.reset with inputs := busySweep (fun _ => 4092#16) } : State).inputs =
        busySweep (fun _ => 4092#16) ++ [] ∧
      (setTickPending State.reset).seq = .idle ∧ (setTickPending State.reset).tickPending = true := by decide

/-- StallFreezesSamplingOnly: a stalled block with a tick, a turn of SEQ and a FIRERELAY pending, and the opcodes
that stage. -/
theorem witness_stall :
    (sweeping .wait 0#3).seq = .wait ∧
      ({ sweeping .wait 0#3 with inputs := [.tick, .seq, .exchange 0x02#8] } : State).inputs =
        [.tick, .seq, .exchange 0x02#8] ++ [] ∧
      (∀ e ∈ [Event.tick, .seq, .exchange 0x02#8], ordinaryEvent e = true ∧ stagingEvent e = false) ∧
      (∀ r, ∀ e ∈ [Event.tick, .seq, .exchange 0x02#8], e ≠ .adcDone r) ∧
      Instr.normal.stages = true ∧ Instr.receiveData.stages = true := by
  refine ⟨rfl, rfl, by decide, ?_, rfl, rfl⟩
  intro r e he
  simp at he
  rcases he with rfl | rfl | rfl <;> simp

/-- RelayIsSetOnlyAndUnread: a tripped relay and an event that answers; FIRERELAY sets the bit. -/
theorem witness_relay :
    ({ s5 with relayOpen := true } : State).relayOpen = true ∧
      deliver .tick { s5 with relayOpen := true } = .next (setTickPending { s5 with relayOpen := true }) ∧
      s5.relayOpen = false ∧ (nextOf (deliver (.exchange 0x02#8) s5)).map (fun t => t.relayOpen) = some true :=
  ⟨rfl, rfl, rfl, by decide⟩

/-- StillBlinkingIsOneWay, ModeLeavesAutoForGood: after the first exchange, with an event that is neither LEDON
nor LEDOFF. -/
theorem witness_after_first_exchange :
    s5.stillBlinking = false ∧ s5.indMode ≠ .auto ∧ deliver .tick s5 = .next (setTickPending s5) ∧
      Event.tick ≠ .reset ∧ Event.tick ≠ .exchange 0x03#8 ∧ Event.tick ≠ .exchange 0x04#8 :=
  ⟨rfl, by decide, rfl, by decide, by decide, by decide⟩

/-- BlinkTimerDrivesOnlyAuto: AUTO with the compare enabled, and OFF with it disabled. -/
theorem witness_blink :
    State.reset.blinkEnable = true ∧ State.reset.indMode = .auto ∧ s5.blinkEnable = false ∧
      s5.indMode ≠ .auto := by decide

/-- EveryStepKeepsTheInvariant: a block waiting for the ADC with the completion pending meets it and steps. -/
theorem witness_invariant :
    Inv { sweeping .wait 7#3 with inputs := [.adcDone 4092#16] } ∧
      (nextOf (step { sweeping .wait 7#3 with inputs := [.adcDone 4092#16] })).isSome = true := by
  refine ⟨⟨?_, rfl, by decide, fun _ => ⟨rfl, rfl⟩, fun h => ?_⟩, by decide⟩
  · exact wf_reset
  · revert h
    decide

/-- NoStepTearsAFrame: a block that has stored one sample of its first sweep meets the record and steps. -/
theorem witness_frame_record :
    FrameRecord ⟨[4092#16], none, none⟩
        { frameWrite (sweeping .setup 1#3) 1#1 0#3 0x03FF#16 with inputs := [.seq] } ∧
      (nextOf (step { frameWrite (sweeping .setup 1#3) 1#1 0#3 0x03FF#16 with inputs := [.seq] })).isSome =
        true := by
  refine ⟨⟨fun rs h => by simp at h, by decide, by decide, by decide, fun h => ?_, fun _ => by decide,
    fun h => ?_⟩, by decide⟩
  · revert h
    decide
  · revert h
    decide

/-- InContractSamplesStayTenBit: the largest in-contract result pending, and an odd offset. -/
theorem witness_ten_bit :
    SamplesTenBit { sweeping .wait 0#3 with inputs := [.adcDone 4092#16] } ∧
      inContract (nextEvent { sweeping .wait 0#3 with inputs := [.adcDone 4092#16] }).1 ∧
      (nextOf (step { sweeping .wait 0#3 with inputs := [.adcDone 4092#16] })).isSome = true ∧
      (15#4).toNat % 2 = 1 := by
  refine ⟨?_, ?_, by decide, by decide⟩
  · unfold SamplesTenBit
    decide
  · show (4092#16).toNat ≤ Config.adcResultMax
    decide

end Sys2Proof.Tests
end

section
/-! The flag `still_blinking` (10_state.md R26): cleared at the handler's entry, written by no arm of an opcode and
by no other agent but reset. -/

namespace Sys2Proof.Machine

/-! ## What the steps do to `still_blinking` -/

@[simp] theorem stageNext_stillBlinking (s : State) : (stageNext s).stillBlinking = s.stillBlinking := rfl

@[simp] theorem setup_stillBlinking (s : State) : (setup s).stillBlinking = s.stillBlinking := rfl

@[simp] theorem store_stillBlinking (r : AdcResult) (s : State) :
    (store r s).stillBlinking = s.stillBlinking := by rw [store_eq]

@[simp] theorem monitorStep_stillBlinking (s : State) : (monitorStep s).stillBlinking = s.stillBlinking := by
  simp only [monitorStep, monitor, monitorWith_eq]

@[simp] theorem publishStep_stillBlinking (s : State) : (publishStep s).stillBlinking = s.stillBlinking := rfl

@[simp] theorem seqStep_stillBlinking (s : State) : (seqStep s).stillBlinking = s.stillBlinking := by
  obtain ⟨-, -, h⟩ | ⟨-, -, h⟩ | ⟨-, h⟩ | ⟨-, h⟩ | ⟨-, h⟩ | ⟨-, h⟩ := seqStep_cases s <;> simp [h]

@[simp] theorem adcDone_stillBlinking (r : AdcResult) (s : State) :
    (adcDone r s).stillBlinking = s.stillBlinking := by
  obtain ⟨-, h⟩ | ⟨-, h⟩ := adcDone_cases r s <;> simp [h]

@[simp] theorem blinkTimer_stillBlinking (level : Bool) (s : State) :
    (blinkTimer level s).stillBlinking = s.stillBlinking := by
  unfold blinkTimer
  split <;> rfl

/-! ## Exchanges and other events -/

/-- Every opcode has a meaning: its exchange answers a next state (30_encoding.md R96). -/
theorem exec_answers_next (i : Instr) (s : State) : ∃ t, exec i s = .next t := by
  cases i <;> exact ⟨_, rfl⟩

/-- The handler's entry clears the flag, and no opcode's arm sets it again. -/
theorem exec_clears_stillBlinking {i : Instr} {s t : State} (h : exec i s = .next t) :
    t.stillBlinking = false := by
  obtain ⟨-, rfl⟩ | ⟨-, rfl⟩ | ⟨-, rfl⟩ | ⟨-, rfl⟩ | ⟨-, rfl⟩ | ⟨-, -, rfl⟩ := exec_next_cases h <;> simp

/-- An event other than reset is an exchange and clears the flag, or it leaves the flag alone. -/
theorem deliver_stillBlinking_cases {e : Event} {s t : State} (he : e ≠ .reset) (h : deliver e s = .next t) :
    (∃ b, e = .exchange b ∧ t.stillBlinking = false) ∨ t.stillBlinking = s.stillBlinking := by
  obtain ⟨hr, -⟩ | ⟨b, hb, hx⟩ | ⟨-, rfl⟩ | ⟨-, rfl⟩ | ⟨r, -, rfl⟩ | ⟨level, -, rfl⟩ := deliver_next_cases h
  · exact absurd hr he
  · exact .inl ⟨b, hb, exec_clears_stillBlinking hx⟩
  · exact .inr (setTickPending_stillBlinking s)
  · exact .inr (seqStep_stillBlinking s)
  · exact .inr (adcDone_stillBlinking r s)
  · exact .inr (blinkTimer_stillBlinking level s)

/-- Settles O39: an exchange clears the flag at its entry, and every other event but reset keeps its value. -/
theorem stillBlinkingIsOneWay : Obligations.StillBlinkingIsOneWay := by
  refine ⟨rfl, fun b s => ?_, fun e s t he h => ?_⟩
  · obtain ⟨t, ht⟩ := exec_answers_next (decode b) s
    exact ⟨t, ht, exec_clears_stillBlinking ht⟩
  · obtain ⟨b, hb, ht⟩ | ht := deliver_stillBlinking_cases he h
    · exact ⟨fun _ => ht, fun hne => absurd hb (hne b)⟩
    · exact ⟨ht.trans, fun _ => ht⟩

end Sys2Proof.Machine
end

section
/-! The frame store byte by byte (20_memory.md R61, R63): which byte of which sample stands at an offset, and what
FrameWrite does to it. -/

namespace Sys2Proof.Machine

/-! ## Offsets as numbers -/

/-- The low byte of a channel's sample is at offset 2c (30_encoding.md R92). -/
theorem toNat_lowOffset (c : Channel) : (lowOffset c).toNat = 2 * c.toNat := by
  revert c
  decide

/-- The high byte of a channel's sample is at offset 2c + 1 (30_encoding.md R92). -/
theorem toNat_highOffset (c : Channel) : (highOffset c).toNat = 2 * c.toNat + 1 := by
  revert c
  decide

theorem eq_lowOffset_of_toNat {o : Offset} {c : Channel} (h : o.toNat = 2 * c.toNat) : o = lowOffset c :=
  BitVec.eq_of_toNat_eq (h.trans (toNat_lowOffset c).symm)

theorem eq_highOffset_of_toNat {o : Offset} {c : Channel} (h : o.toNat = 2 * c.toNat + 1) : o = highOffset c :=
  BitVec.eq_of_toNat_eq (h.trans (toNat_highOffset c).symm)

/-! ## The bytes of a slot -/

/-- Settles O24: an offset is the low or the high offset of its channel, by its bit 0, and the sample's half is
the byte there. -/
theorem serializationIsLittleEndian : Obligations.SerializationIsLittleEndian := by
  intro s sl o
  obtain ⟨hbit, ho⟩ | ⟨hbit, ho⟩ := offset_cases o
  · have hbyte : frameRead s sl o = lowByte (sample s sl (o.extractLsb' 1 3)) := by
      rw [lowByte_sample, ← ho]
    exact ⟨fun _ => hbyte, fun hodd => absurd (hbit.symm.trans hodd) Bool.false_ne_true⟩
  · have hbyte : frameRead s sl o = highByte (sample s sl (o.extractLsb' 1 3)) := by
      rw [highByte_sample, ← ho]
    exact ⟨fun heven => absurd (heven.symm.trans hbit) Bool.false_ne_true, fun _ => hbyte⟩

/-- Settles O25: offsets 2c and 2c + 1 are the two bytes FrameWrite writes, and a byte of another sample is at
neither address. -/
theorem frameWriteWritesOneSample : Obligations.FrameWriteWritesOneSample := by
  intro s sl c v
  refine ⟨sample_frameWrite_self s sl c v, fun o ho => ?_, fun o ho => ?_,
    fun sl' o hne => frameRead_frameWrite_other s v hne, rfl⟩
  · rw [eq_lowOffset_of_toNat ho]
    exact frameRead_frameWrite_low s sl c v
  · rw [eq_highOffset_of_toNat ho]
    exact frameRead_frameWrite_high s sl c v

end Sys2Proof.Machine
end

section
/-! Every byte is a legal opcode (30_encoding.md R96): the bytes of NOP, and the step that delivers an exchange. -/

namespace Sys2Proof.Machine

/-- The bytes 5 to 255 are NOP (30_encoding.md R91, R96): a well-formed NOP is read back from its own byte. -/
theorem decode_eq_nop_of_five_le {b : Byte} (h : 5 ≤ b.toNat) : decode b = .nop b :=
  Laws.RoundTrip.nop b (decide_eq_true h)

/-- A step with an event pending takes the head of the queue and delivers it (log entry 1). -/
theorem step_eq_deliver_of_pending {s : State} {e : Event} {es : List Event} (h : s.inputs = e :: es) :
    step s = deliver e (beginStep { s with inputs := es }) := by
  simp only [step, nextEvent, h]

@[simp] theorem stageNext_inputs (s : State) : (stageNext s).inputs = s.inputs := rfl

/-- An exchange leaves the pending events alone: neither the handler's entry nor an opcode's arm writes them. -/
theorem exec_keeps_inputs {i : Instr} {s t : State} (h : exec i s = .next t) : t.inputs = s.inputs := by
  obtain ⟨-, rfl⟩ | ⟨-, rfl⟩ | ⟨-, rfl⟩ | ⟨-, rfl⟩ | ⟨-, rfl⟩ | ⟨-, -, rfl⟩ := exec_next_cases h <;> simp

/-- Settles O4: a step with an exchange pending is the `exec` of its decoded byte, which always answers; a NOP
is the handler's entry alone. -/
theorem everyByteIsALegalOpcode : Obligations.EveryByteIsALegalOpcode := by
  refine ⟨fun b => decode_eq_nop_of_five_le, fun s b es hs => ?_, fun s b hfirst => ?_⟩
  · obtain ⟨t, ht⟩ := exec_answers_next (decode b) (beginStep { s with inputs := es })
    exact ⟨t, (step_eq_deliver_of_pending hs).trans ht, exec_keeps_inputs ht, exec_clears_stillBlinking ht⟩
  · exact ⟨_, exec_nop b s, by simp [hfirst], by simp [hfirst]⟩

end Sys2Proof.Machine
end

section
/-! The opcodes of the protocol (40_protocol_opcodes.md section 2): what each exchange stages, replies and leaves
alone, and that only received bytes move the cursor (R133). -/

namespace Sys2Proof.Machine

/-! ## What staging a byte does -/

@[simp] theorem stageNext_frameMem (s : State) : (stageNext s).frameMem = s.frameMem := rfl
@[simp] theorem stageNext_active (s : State) : (stageNext s).active = s.active := rfl
@[simp] theorem stageNext_relayOpen (s : State) : (stageNext s).relayOpen = s.relayOpen := rfl
@[simp] theorem stageNext_outReply (s : State) : (stageNext s).outReply = s.outReply := rfl
@[simp] theorem stageNext_tx (s : State) : (stageNext s).tx = frameRead s s.active s.cur := rfl
@[simp] theorem stageNext_cur (s : State) : (stageNext s).cur = s.cur + 1#4 := nextCursor_eq s.cur

@[simp] theorem frameRead_sendReply (s : State) (sl : Slot) (o : Offset) :
    frameRead (sendReply s) sl o = frameRead s sl o := rfl

@[simp] theorem frameRead_handlerEntry (s : State) (sl : Slot) (o : Offset) :
    frameRead (handlerEntry s) sl o = frameRead s sl o :=
  frameRead_congr (handlerEntry_frameMem s) sl o

@[simp] theorem frameRead_resetCursor (s : State) (sl : Slot) (o : Offset) :
    frameRead (resetCursor s) sl o = frameRead s sl o := rfl

/-! ## What every exchange does -/

/-- An opcode answers one state only. -/
theorem exec_next_unique {i : Instr} {s t u : State} (ht : exec i s = .next t) (hu : exec i s = .next u) : t = u :=
  Host.Outcome.next.inj (ht.symm.trans hu)

/-- The reply is the byte staged before the exchange, whatever the opcode (40_protocol_opcodes.md R120). -/
theorem exec_replies_tx {i : Instr} {s t : State} (h : exec i s = .next t) : t.outReply = some s.tx := by
  obtain ⟨-, rfl⟩ | ⟨-, rfl⟩ | ⟨-, rfl⟩ | ⟨-, rfl⟩ | ⟨-, rfl⟩ | ⟨-, -, rfl⟩ := exec_next_cases h <;>
    simp

/-- Every opcode answers, and the host receives the byte staged before it. -/
theorem exec_answers_tx (i : Instr) (s : State) : ∃ t, exec i s = .next t ∧ t.outReply = some s.tx := by
  obtain ⟨t, ht⟩ := exec_answers_next i s
  exact ⟨t, ht, exec_replies_tx ht⟩

/-- No opcode writes the frame space: the sequencer alone does (20_memory.md R68). -/
theorem exec_keeps_frameMem {i : Instr} {s t : State} (h : exec i s = .next t) : t.frameMem = s.frameMem := by
  obtain ⟨-, rfl⟩ | ⟨-, rfl⟩ | ⟨-, rfl⟩ | ⟨-, rfl⟩ | ⟨-, rfl⟩ | ⟨-, -, rfl⟩ := exec_next_cases h <;>
    simp

/-- No opcode changes a byte of either slot. -/
theorem exec_keeps_bytes {i : Instr} {s t : State} (h : exec i s = .next t) (sl : Slot) (o : Offset) :
    frameRead t sl o = frameRead s sl o :=
  frameRead_congr (exec_keeps_frameMem h) sl o

/-- An open relay stays open: of the opcodes FIRERELAY alone writes the bit, and sets it (10_state.md R30). -/
theorem exec_keeps_relayOpen {i : Instr} {s t : State} (hs : s.relayOpen = true) (h : exec i s = .next t) :
    t.relayOpen = true := by
  obtain ⟨-, rfl⟩ | ⟨-, rfl⟩ | ⟨-, rfl⟩ | ⟨-, rfl⟩ | ⟨-, rfl⟩ | ⟨-, -, rfl⟩ := exec_next_cases h <;>
    simp [hs]

/-! ## The byte that is staged -/

/-- Byte `o` of a slot is a half of sample `o / 2`, the low one at an even offset (20_memory.md R61). -/
theorem frameRead_eq_half_sample (s : State) (sl : Slot) (o : Offset) :
    frameRead s sl o = if o.toNat % 2 = 0 then lowByte (sample s sl (BitVec.ofNat 3 (o.toNat / 2)))
      else highByte (sample s sl (BitVec.ofNat 3 (o.toNat / 2))) := by
  have hc : (BitVec.ofNat 3 (o.toNat / 2)).toNat = o.toNat / 2 := by
    rw [BitVec.toNat_ofNat]
    omega
  split
  · next heven =>
    rw [lowByte_sample, ← eq_lowOffset_of_toNat (o := o) (by omega)]
  · next hodd =>
    rw [highByte_sample, ← eq_highOffset_of_toNat (o := o) (by omega)]

/-- Byte 0 of a slot is the low byte of TEMP (30_encoding.md R92). -/
theorem frameRead_zero_eq_lowByte_temp (s : State) (sl : Slot) :
    frameRead s sl 0#4 = lowByte (sample s sl tempChannel) := frameRead_eq_half_sample s sl 0#4

/-- The byte NORMAL stages is read at the cursor before it advances (40_protocol_opcodes.md R123). -/
theorem exec_normal_tx {s t : State} (h : exec .normal s = .next t) : t.tx = frameRead s s.active s.cur := by
  obtain rfl := exec_next_unique h (exec_normal s)
  simp

/-- RECEIVEDATA stages byte 0 of the active slot, wherever the cursor was (40_protocol_opcodes.md R124). -/
theorem exec_receiveData_tx {s t : State} (h : exec .receiveData s = .next t) :
    t.tx = frameRead s s.active 0#4 := by
  obtain rfl := exec_next_unique h (exec_receiveData s)
  simp

/-- Beside the reply and the handler's entry, NORMAL and RECEIVEDATA write `tx` and `cur` and nothing else. -/
theorem exec_frame_of_stages {i : Instr} {s t : State} (hi : i.stages = true) (h : exec i s = .next t) :
    t = { s with
      outReply := some s.tx, tx := t.tx, cur := t.cur, stillBlinking := false,
      blinkEnable := if s.stillBlinking then false else s.blinkEnable,
      indMode := if s.stillBlinking then .off else s.indMode } := by
  cases i with
  | normal =>
    obtain rfl := exec_next_unique h (exec_normal s)
    rw [handlerEntry_sendReply_eq, stageNext_eq]
  | receiveData =>
    obtain rfl := exec_next_unique h (exec_receiveData s)
    rw [handlerEntry_sendReply_eq, stageNext_eq, resetCursor]
  | fireRelay => cases hi
  | ledOn => cases hi
  | ledOff => cases hi
  | nop b => cases hi

/-! ## The cursor -/

/-- Where the cursor stands after an opcode (40_protocol_opcodes.md R123, R124, R130). -/
def cursorAfter : Instr → Offset → Offset
  | .normal, c => c + 1#4
  | .receiveData, _ => 1#4
  | .fireRelay, c => c
  | .ledOn, c => c
  | .ledOff, c => c
  | .nop _, c => c

theorem exec_cur {i : Instr} {s t : State} (h : exec i s = .next t) : t.cur = cursorAfter i s.cur := by
  obtain ⟨rfl, rfl⟩ | ⟨rfl, rfl⟩ | ⟨rfl, rfl⟩ | ⟨rfl, rfl⟩ | ⟨rfl, rfl⟩ | ⟨b, rfl, rfl⟩ := exec_next_cases h <;>
    simp [cursorAfter]

/-- The bytes other than 0 and 1 decode to opcodes that leave the cursor where it is. -/
theorem cursorAfter_decode_of_ne {b : Byte} (h0 : b ≠ 0x00#8) (h1 : b ≠ 0x01#8) (c : Offset) :
    cursorAfter (decode b) c = c := by
  obtain ⟨hb, -⟩ | ⟨hb, -⟩ | ⟨-, hd⟩ | ⟨-, hd⟩ | ⟨-, hd⟩ | ⟨-, hd⟩ := decode_cases b
  · exact absurd hb h0
  · exact absurd hb h1
  all_goals rw [hd, cursorAfter]

/-! ## The other agents' steps and the host's cursor -/

@[simp] theorem setup_cur (s : State) : (setup s).cur = s.cur := rfl
@[simp] theorem setup_tx (s : State) : (setup s).tx = s.tx := rfl

@[simp] theorem store_cur (r : AdcResult) (s : State) : (store r s).cur = s.cur := by rw [store_eq]
@[simp] theorem store_tx (r : AdcResult) (s : State) : (store r s).tx = s.tx := by rw [store_eq]

@[simp] theorem monitorStep_cur (s : State) : (monitorStep s).cur = s.cur := by
  simp only [monitorStep, monitor, monitorWith_eq]
@[simp] theorem monitorStep_tx (s : State) : (monitorStep s).tx = s.tx := by
  simp only [monitorStep, monitor, monitorWith_eq]

@[simp] theorem publishStep_cur (s : State) : (publishStep s).cur = s.cur := rfl
@[simp] theorem publishStep_tx (s : State) : (publishStep s).tx = s.tx := rfl

theorem seqStep_keeps_cur_tx (s : State) : (seqStep s).cur = s.cur ∧ (seqStep s).tx = s.tx := by
  obtain ⟨-, -, h⟩ | ⟨-, -, h⟩ | ⟨-, h⟩ | ⟨-, h⟩ | ⟨-, h⟩ | ⟨-, h⟩ := seqStep_cases s <;> simp [h]

theorem adcDone_keeps_cur_tx (r : AdcResult) (s : State) :
    (adcDone r s).cur = s.cur ∧ (adcDone r s).tx = s.tx := by
  obtain ⟨-, h⟩ | ⟨-, h⟩ := adcDone_cases r s <;> simp [h]

theorem blinkTimer_keeps_cur_tx (level : Bool) (s : State) :
    (blinkTimer level s).cur = s.cur ∧ (blinkTimer level s).tx = s.tx := by
  unfold blinkTimer
  split <;> exact ⟨rfl, rfl⟩

/-- An event other than reset is an exchange, or it leaves the cursor and the staged byte alone (R133). -/
theorem deliver_cur_tx_cases {e : Event} {s t : State} (he : e ≠ .reset) (h : deliver e s = .next t) :
    (∃ b, e = .exchange b ∧ t.cur = cursorAfter (decode b) s.cur) ∨
    ((∀ b, e ≠ .exchange b) ∧ t.cur = s.cur ∧ t.tx = s.tx) := by
  obtain ⟨hr, -⟩ | ⟨b, hb, hx⟩ | ⟨rfl, rfl⟩ | ⟨rfl, rfl⟩ | ⟨r, rfl, rfl⟩ | ⟨level, rfl, rfl⟩ :=
    deliver_next_cases h
  · exact absurd hr he
  · exact .inl ⟨b, hb, exec_cur hx⟩
  · exact .inr ⟨nofun, setTickPending_cur s, setTickPending_tx s⟩
  · exact .inr ⟨nofun, seqStep_keeps_cur_tx s⟩
  · exact .inr ⟨nofun, adcDone_keeps_cur_tx r s⟩
  · exact .inr ⟨nofun, blinkTimer_keeps_cur_tx level s⟩

/-! ## The obligations of the opcodes and of the cursor -/

/-- Settles O14: the staged byte is the one at the old cursor, which is a half of sample `cur / 2`. -/
theorem normalStagesNextByteAndAdvances : Obligations.NormalStagesNextByteAndAdvances := by
  intro s
  obtain ⟨t, ht⟩ := exec_answers_next .normal s
  refine ⟨t, ht, (exec_normal_tx ht).trans (frameRead_eq_half_sample s s.active s.cur), ?_,
    exec_keeps_bytes ht, exec_frame_of_stages rfl ht⟩
  simp [exec_cur ht, cursorAfter, BitVec.toNat_add]

/-- Settles O15: RECEIVEDATA stages byte 0, which the next exchange replies; as no opcode writes the frame space
or `active`, a second one finds the same byte. -/
theorem receiveDataRestartsTheBurst : Obligations.ReceiveDataRestartsTheBurst := by
  intro s
  obtain ⟨t, ht⟩ := exec_answers_next .receiveData s
  have htx : t.tx = (sample s s.active 0#3).extractLsb' 0 8 :=
    (exec_receiveData_tx ht).trans (frameRead_zero_eq_lowByte_temp s s.active)
  have hframe := exec_frame_of_stages rfl ht
  have hactive : t.active = s.active := by rw [hframe]
  obtain ⟨u, hu⟩ := exec_answers_next .receiveData t
  have hutx : u.tx = t.tx := calc
    u.tx = frameRead t t.active 0#4 := exec_receiveData_tx hu
    _ = frameRead s s.active 0#4 := by rw [exec_keeps_bytes ht, hactive]
    _ = t.tx := (exec_receiveData_tx ht).symm
  exact ⟨t, ht, htx, exec_cur ht, exec_keeps_bytes ht, hframe, fun j => htx ▸ exec_answers_tx j t,
    u, hu, hutx, exec_cur hu⟩

/-- Settles O16: a second FIRERELAY finds the flag cleared, the relay open and the same byte staged, so it
changes nothing, and no opcode's arm closes the relay. -/
theorem fireRelayTripsForGood : Obligations.FireRelayTripsForGood := by
  intro s
  obtain ⟨t, ht⟩ := exec_answers_next .fireRelay s
  have hst : t = { s with
      outReply := some s.tx, relayOpen := true, stillBlinking := false,
      blinkEnable := if s.stillBlinking then false else s.blinkEnable,
      indMode := if s.stillBlinking then .off else s.indMode } := by
    obtain rfl := exec_next_unique ht (exec_fireRelay s)
    rw [handlerEntry_sendReply_eq, trip]
  have hopen : t.relayOpen = true := by rw [hst]
  have htx : t.tx = s.tx := by rw [hst]
  refine ⟨t, ht, hopen, exec_cur ht, htx, exec_keeps_bytes ht, hst, ?_, fun j => ?_⟩
  · rw [exec_fireRelay, handlerEntry_sendReply_eq, trip, hst]
    rfl
  · obtain ⟨u, hu, hreply⟩ := exec_answers_tx j t
    exact ⟨u, hu, exec_keeps_relayOpen hopen hu, by rw [hreply, exec_replies_tx ht, htx]⟩

/-- Settles O18: LEDOFF's arm writes the mode after the entry, and a first entry leaves that mode already. -/
theorem ledOffForcesTheIndicatorOff : Obligations.LedOffForcesTheIndicatorOff := by
  intro s
  refine ⟨_, exec_ledOff s, exec_keeps_bytes (exec_ledOff s), fun level => rfl, ?_, fun hfirst b => ?_⟩
  · rw [handlerEntry_sendReply_eq, setIndMode]
  · have hmode : (handlerEntry (sendReply s)).indMode = .off := by simp [hfirst]
    rw [exec_nop, setIndMode, ← hmode]

/-- Settles O19: a NOP is the handler's entry alone, which keeps `tx`, so the next reply is the same byte. -/
theorem nopKeepsTheStagedByte : Obligations.NopKeepsTheStagedByte := by
  intro b s
  have hx := exec_nop b s
  refine ⟨_, hx, exec_keeps_bytes hx, handlerEntry_sendReply_eq s, fun j => ?_⟩
  obtain ⟨u, hu, hreply⟩ := exec_answers_tx j (handlerEntry (sendReply s))
  exact ⟨u, hu, by rw [hreply, exec_replies_tx hx, handlerEntry_tx, sendReply_tx]⟩

/-- Settles O23: an exchange moves the cursor as its opcode says, and no other event touches it. -/
theorem onlyReceivedBytesMoveTheCursor : Obligations.OnlyReceivedBytesMoveTheCursor := by
  intro e s t he h
  obtain ⟨b, rfl, hcur⟩ | ⟨hne, hcur, htx⟩ := deliver_cur_tx_cases he h
  · refine ⟨fun hno => absurd rfl (hno b), fun h0 h1 => ?_, fun hb => ?_, fun hb => ?_⟩
    · rw [hcur, cursorAfter_decode_of_ne (mt (congrArg Event.exchange) h0) (mt (congrArg Event.exchange) h1)]
    · cases hb
      exact hcur
    · cases hb
      exact hcur
  · exact ⟨fun _ => ⟨hcur, htx⟩, fun _ _ => hcur, fun hb => absurd hb (hne _), fun hb => absurd hb (hne _)⟩

end Sys2Proof.Machine
end

section
/-! Access to the frame store (41_frame_store_ops.md R154, R155): of all events but reset, STORE alone writes a
byte, PUBLISH alone moves the selector, and an opcode reads the byte it stages and no other. -/

namespace Sys2Proof.Machine

/-! ## What the sequencer's steps do to the frame space and the selector -/

@[simp] theorem setup_frameMem (s : State) : (setup s).frameMem = s.frameMem := rfl
@[simp] theorem setup_active (s : State) : (setup s).active = s.active := rfl

@[simp] theorem monitorStep_frameMem (s : State) : (monitorStep s).frameMem = s.frameMem := by
  simp only [monitorStep, monitor, monitorWith_eq]
@[simp] theorem monitorStep_active (s : State) : (monitorStep s).active = s.active := by
  simp only [monitorStep, monitor, monitorWith_eq]

@[simp] theorem publishStep_frameMem (s : State) : (publishStep s).frameMem = s.frameMem := rfl
@[simp] theorem publishStep_active (s : State) : (publishStep s).active = s.active ^^^ 1#1 := rfl

@[simp] theorem store_active (r : AdcResult) (s : State) : (store r s).active = s.active := by rw [store_eq]

/-- STORE writes by FrameWrite, into channel `ch` of the inactive slot (42_sampler_sequencer.md R177). -/
theorem store_frameMem (r : AdcResult) (s : State) :
    (store r s).frameMem = (frameWrite s (inactiveSlot s) s.ch (sampleOfResult r)).frameMem := by rw [store_eq]

/-- The stored sample is a quarter of the result (R177, R181). -/
theorem sample_store_toNat (r : AdcResult) (s : State) :
    (sample (store r s) (inactiveSlot s) s.ch).toNat = r.toNat / 4 := by
  rw [sample_congr (store_frameMem r s), sample_frameWrite_self, sampleOfResult_toNat]

/-- STORE leaves every byte of every other sample alone. -/
theorem frameRead_store_other (r : AdcResult) (s : State) {sl : Slot} {o : Offset}
    (h : (sl, o.extractLsb' 1 3) ≠ (inactiveSlot s, s.ch)) :
    frameRead (store r s) sl o = frameRead s sl o := by
  rw [frameRead_congr (store_frameMem r s), frameRead_frameWrite_other s _ h]

/-! ## The events -/

theorem exec_keeps_active {i : Instr} {s t : State} (h : exec i s = .next t) : t.active = s.active := by
  obtain ⟨-, rfl⟩ | ⟨-, rfl⟩ | ⟨-, rfl⟩ | ⟨-, rfl⟩ | ⟨-, rfl⟩ | ⟨-, -, rfl⟩ := exec_next_cases h <;> simp

/-- SEQ's turn is the PUBLISH step, or it leaves the frame space and the selector alone. -/
theorem seqStep_frame_cases (s : State) :
    (s.seq = .publish ∧ seqStep s = publishStep s) ∨
    ((seqStep s).frameMem = s.frameMem ∧ (seqStep s).active = s.active) := by
  obtain ⟨-, -, h⟩ | ⟨-, -, h⟩ | ⟨-, h⟩ | ⟨-, h⟩ | ⟨-, h⟩ | hpublish := seqStep_cases s
  case inr.inr.inr.inr.inr => exact .inl hpublish
  all_goals exact .inr (by simp [h])

theorem blinkTimer_keeps_frame (level : Bool) (s : State) :
    (blinkTimer level s).frameMem = s.frameMem ∧ (blinkTimer level s).active = s.active := by
  unfold blinkTimer
  split <;> exact ⟨rfl, rfl⟩

/-- An event other than reset is a completion stored in WAIT, a PUBLISH step, or it leaves the frame space and
the selector alone (41_frame_store_ops.md R154). -/
theorem deliver_frame_cases {e : Event} {s t : State} (he : e ≠ .reset) (h : deliver e s = .next t) :
    (∃ r, e = .adcDone r ∧ s.seq = .wait ∧ t = store r s) ∨
    (e = .seq ∧ s.seq = .publish ∧ t = publishStep s) ∨
    (t.frameMem = s.frameMem ∧ t.active = s.active) := by
  obtain ⟨hr, -⟩ | ⟨b, -, hx⟩ | ⟨-, rfl⟩ | ⟨hseq, rfl⟩ | ⟨r, hadc, rfl⟩ | ⟨level, -, rfl⟩ := deliver_next_cases h
  · exact absurd hr he
  · exact .inr (.inr ⟨exec_keeps_frameMem hx, exec_keeps_active hx⟩)
  · exact .inr (.inr ⟨setTickPending_frameMem s, setTickPending_active s⟩)
  · obtain ⟨hpublish, ht⟩ | hkeep := seqStep_frame_cases s
    · exact .inr (.inl ⟨hseq, hpublish, ht⟩)
    · exact .inr (.inr hkeep)
  · obtain ⟨hwait, ht⟩ | ⟨-, ht⟩ := adcDone_cases r s
    · exact .inl ⟨r, hadc, hwait, ht⟩
    · exact .inr (.inr (by rw [ht]; exact ⟨rfl, rfl⟩))
  · exact .inr (.inr (blinkTimer_keeps_frame level s))

/-! ## The opcodes on another memory -/

/-- The reply and the handler's entry read no byte of the frame space. -/
theorem handlerEntry_sendReply_on_memory (s : State) (m : Memory) :
    handlerEntry (sendReply { s with frameMem := m }) = { handlerEntry (sendReply s) with frameMem := m } := by
  rw [handlerEntry_sendReply_eq, handlerEntry_sendReply_eq]

theorem resetCursor_on_memory (s : State) (m : Memory) :
    resetCursor { s with frameMem := m } = { resetCursor s with frameMem := m } := rfl

/-- Staging reads the byte at the cursor of the active slot and no other (R155). -/
theorem stageNext_on_memory {s : State} {m : Memory}
    (h : frameRead { s with frameMem := m } s.active s.cur = frameRead s s.active s.cur) :
    stageNext { s with frameMem := m } = { stageNext s with frameMem := m } := by
  rw [stageNext_eq, stageNext_eq, h]

/-- An opcode that finds the same byte at its cursor, which RECEIVEDATA has reset, does the same (R155). -/
theorem exec_on_memory (i : Instr) (s : State) (m : Memory)
    (h : frameRead { s with frameMem := m } s.active (if i = .receiveData then 0#4 else s.cur) =
      frameRead s s.active (if i = .receiveData then 0#4 else s.cur)) :
    ∃ t, exec i s = .next t ∧ exec i { s with frameMem := m } = .next { t with frameMem := m } := by
  have hentry := handlerEntry_sendReply_on_memory s m
  cases i with
  | normal =>
    refine ⟨_, exec_normal s, ?_⟩
    rw [exec_normal, hentry, handlerEntry_sendReply_eq]
    exact congrArg Host.Outcome.next (stageNext_on_memory h)
  | receiveData =>
    refine ⟨_, exec_receiveData s, ?_⟩
    rw [exec_receiveData, hentry, resetCursor_on_memory, handlerEntry_sendReply_eq]
    exact congrArg Host.Outcome.next (stageNext_on_memory h)
  | fireRelay => exact ⟨_, exec_fireRelay s, by rw [exec_fireRelay, hentry, trip, trip]⟩
  | ledOn => exact ⟨_, exec_ledOn s, by rw [exec_ledOn, hentry, setIndMode, setIndMode]⟩
  | ledOff => exact ⟨_, exec_ledOff s, by rw [exec_ledOff, hentry, setIndMode, setIndMode]⟩
  | nop b => exact ⟨_, exec_nop b s, by rw [exec_nop, hentry]⟩

/-! ## The obligation -/

/-- Settles O26: an event stores one sample of the slot that is not active, or flips the selector, or touches
neither; and an opcode that finds the same byte at its cursor does the same. -/
theorem noOtherAccessToTheFrameStore : Obligations.NoOtherAccessToTheFrameStore := by
  refine ⟨fun e s t he h => ?_, exec_on_memory⟩
  obtain ⟨r, rfl, hwait, rfl⟩ | ⟨rfl, hpublish, rfl⟩ | ⟨hmem, hactive⟩ := deliver_frame_cases he h
  · refine ⟨fun o => ?_, fun o hchanged => ⟨hwait, ?_, r, rfl, sample_store_toNat r s⟩,
      fun hflip => absurd (store_active r s) hflip⟩
    · exact frameRead_store_other r s fun heq => inactiveSlot_ne s (congrArg Prod.fst heq).symm
    · by_contra hch
      exact hchanged (frameRead_store_other r s fun heq => hch (congrArg Prod.snd heq))
  · have hkeep := frameRead_congr (publishStep_frameMem s)
    exact ⟨hkeep s.active, fun o hchanged => absurd (hkeep _ o) hchanged,
      fun _ => ⟨publishStep_active s, rfl, hpublish⟩⟩
  · have hkeep := frameRead_congr hmem
    exact ⟨hkeep s.active, fun o hchanged => absurd (hkeep _ o) hchanged, fun hflip => absurd hactive hflip⟩

end Sys2Proof.Machine
end

section
/-! The MONITOR step (43_monitor_relay_indicator.md R200 to R204): the setpoint it refreshes, when the relay is open
after it, and what it leaves unchanged. -/

namespace Sys2Proof.Machine

/-- In MONITOR, SEQ's turn is the MONITOR step (42_sampler_sequencer.md R178). -/
theorem deliver_seq_of_monitor {s : State} (h : s.seq = .monitor) : deliver .seq s = .next (monitorStep s) := by
  simp only [deliver, seqStep, h]

/-- The setpoint is refreshed whatever the two checks decide (R202). -/
theorem monitorStep_dacSetpoint (s : State) :
    (monitorStep s).dacSetpoint =
      Config.setpointFor Config.iTarget (Config.supplyEstimate (sample s (inactiveSlot s) cell0Channel)) := by
  simp only [monitorStep, monitor, monitorWith_eq, Config.monitorParams]

/-- The relay is open after the step if it was before (R208), or on undervoltage (R203), or on overtemperature
(R204). -/
theorem monitorStep_relayOpen_iff (s : State) :
    (monitorStep s).relayOpen = true ↔ s.relayOpen = true ∨
      Config.supplyEstimate (sample s (inactiveSlot s) cell0Channel) ≤ Config.vMin ∨
      Config.tMax ≤ Config.temperature (sample s (inactiveSlot s) tempChannel) := by
  simp only [monitorStep, monitor, monitorWith_eq, Config.monitorParams, Bool.or_eq_true, decide_eq_true_eq, or_assoc]

/-- The step writes the setpoint, the relay bit and `seq`, and nothing else (R200, R178). -/
theorem monitorStep_frame (s : State) :
    monitorStep s = { s with
      dacSetpoint := (monitorStep s).dacSetpoint, relayOpen := (monitorStep s).relayOpen, seq := .publish } := by
  simp only [monitorStep, monitor, monitorWith_eq]

/-- Settles O32: in MONITOR, SEQ's turn is the MONITOR step, which reads CELL0 and TEMP of the inactive slot. -/
theorem monitorRefreshesSetpointAndTrips : Obligations.MonitorRefreshesSetpointAndTrips := by
  intro s hseq
  exact ⟨monitorStep s, deliver_seq_of_monitor hseq, monitorStep_dacSetpoint s, monitorStep_relayOpen_iff s,
    frameRead_congr (monitorStep_frameMem s), monitorStep_frame s⟩

end Sys2Proof.Machine
end

section
/-! The one-exchange lag of the replies (70_reset_and_hazards.md R280). -/

namespace Sys2Proof.Machine

/-- Settles O11: every opcode replies the byte staged before it (R120), so the opcode after it, whatever it is,
replies the byte it leaves staged. -/
theorem replyIsTheByteStagedBefore : Obligations.ReplyIsTheByteStagedBefore := by
  intro i s
  obtain ⟨t, ht, hreply⟩ := exec_answers_tx i s
  exact ⟨t, ht, hreply, fun j => exec_answers_tx j t⟩

end Sys2Proof.Machine
end

section
/-! The encoding of opcodes and of host programs (30_encoding.md R91, R97, R103). -/

namespace Sys2Proof

/-- A well-formed opcode is read back from its byte (R91). -/
theorem decode_encode {i : Instr} (h : i.wellFormed = true) : decode (encode i) = i := by
  cases i with
  | normal => exact Laws.RoundTrip.normal h
  | receiveData => exact Laws.RoundTrip.receiveData h
  | fireRelay => exact Laws.RoundTrip.fireRelay h
  | ledOn => exact Laws.RoundTrip.ledOn h
  | ledOff => exact Laws.RoundTrip.ledOff h
  | nop b => exact Laws.RoundTrip.nop b h

/-- A decoded opcode is encoded by the byte it was read from (R105). -/
theorem encode_decode (b : Byte) : encode (decode b) = b := by
  obtain ⟨rfl, -⟩ | ⟨rfl, -⟩ | ⟨rfl, -⟩ | ⟨rfl, -⟩ | ⟨rfl, -⟩ | ⟨-, hd⟩ := Machine.decode_cases b
  case inr.inr.inr.inr.inr => rw [hd, encode]
  all_goals rfl

/-- What a byte decodes to is well-formed: a NOP is read from 5 to 255 only. -/
theorem wellFormed_decode (b : Byte) : (decode b).wellFormed = true := by
  obtain ⟨-, hd⟩ | ⟨-, hd⟩ | ⟨-, hd⟩ | ⟨-, hd⟩ | ⟨-, hd⟩ | ⟨hb, hd⟩ := Machine.decode_cases b
  case inr.inr.inr.inr.inr => rw [hd, Instr.wellFormed, decide_eq_true hb]
  all_goals rw [hd, Instr.wellFormed]

/-- Settles O2: the round trip of every opcode is that of its kind, and the bytes 5 to 255 are the NOPs. -/
theorem decodeAndEncodeAgree : Obligations.DecodeAndEncodeAgree :=
  ⟨fun _ => decode_encode, fun b => ⟨wellFormed_decode b, encode_decode b⟩⟩

/-- Settles O3: a program is encoded and decoded opcode by opcode (R97), so each round trip is that of one. -/
theorem hostProgramRoundTrip : Obligations.HostProgramRoundTrip := by
  refine ⟨fun p hp => ?_, fun bs => ?_⟩
  · rw [decodeProgram, encodeProgram, List.map_map]
    exact (List.map_congr_left fun i hi => decode_encode (hp i hi)).trans (List.map_id p)
  · rw [decodeProgram, encodeProgram, List.map_map]
    exact List.map_id'' encode_decode bs

/-- Settles O1: the written bytes, each decoded as R91 says. -/
theorem writtenOpcodeBytesDecode : Obligations.WrittenOpcodeBytesDecode := by
  unfold Obligations.WrittenOpcodeBytesDecode
  decide

end Sys2Proof
end

section
/-! One exchange in closed form (40_protocol_opcodes.md R120 to R128), and what it says of every opcode. -/

namespace Sys2Proof.Machine

/-- The byte staged after an opcode (R123, R124; the others keep it, D3). -/
def stagedAfter : Instr → State → Byte
  | .normal, s => frameRead s s.active s.cur
  | .receiveData, s => frameRead s s.active 0#4
  | .fireRelay, s => s.tx
  | .ledOn, s => s.tx
  | .ledOff, s => s.tx
  | .nop _, s => s.tx

/-- What the arm of an opcode makes of the mode the handler's entry leaves (R126, R127). -/
def modeAfter : Instr → IndMode → IndMode
  | .ledOn, _ => .on
  | .ledOff, _ => .off
  | .normal, m => m
  | .receiveData, m => m
  | .fireRelay, m => m
  | .nop _, m => m

/-- The state a whole exchange answers. -/
def afterExchange (i : Instr) (s : State) : State :=
  { s with
    outReply := some s.tx
    tx := stagedAfter i s
    cur := cursorAfter i s.cur
    stillBlinking := false
    blinkEnable := if s.stillBlinking then false else s.blinkEnable
    indMode := modeAfter i (if s.stillBlinking then .off else s.indMode)
    relayOpen := s.relayOpen || decide (i = .fireRelay) }

/-- Everything an exchange does: the entry of the handler, then the one arm of its opcode. -/
theorem exec_eq (i : Instr) (s : State) : exec i s = .next (afterExchange i s) := by
  cases i with
  | normal =>
    simp [exec_normal, handlerEntry_sendReply_eq, stageNext_eq, nextCursor_eq, afterExchange, stagedAfter,
      cursorAfter, modeAfter, frameRead]
  | receiveData =>
    simp [exec_receiveData, handlerEntry_sendReply_eq, resetCursor, stageNext_eq, nextCursor_eq, afterExchange,
      stagedAfter, cursorAfter, modeAfter, frameRead]
  | fireRelay =>
    simp [exec_fireRelay, handlerEntry_sendReply_eq, trip, afterExchange, stagedAfter, cursorAfter, modeAfter]
  | ledOn =>
    simp [exec_ledOn, handlerEntry_sendReply_eq, setIndMode, afterExchange, stagedAfter, cursorAfter, modeAfter]
  | ledOff =>
    simp [exec_ledOff, handlerEntry_sendReply_eq, setIndMode, afterExchange, stagedAfter, cursorAfter, modeAfter]
  | nop b => simp [exec_nop, handlerEntry_sendReply_eq, afterExchange, stagedAfter, cursorAfter, modeAfter]

theorem eq_afterExchange_of_exec {i : Instr} {s t : State} (h : exec i s = .next t) : t = afterExchange i s :=
  exec_next_unique h (exec_eq i s)

/-- Settles O12: the closed form writes those seven fields only, and the frame space is none of them. -/
theorem exchangeFrame : Obligations.ExchangeFrame :=
  fun i s => ⟨_, exec_eq i s, rfl, fun _ _ => rfl⟩

/-- Settles O13: the entry clears the flags and the mode, and only LEDON and LEDOFF write the mode after it. -/
theorem handlerEntryActsOnce : Obligations.HandlerEntryActsOnce := by
  intro i s
  refine ⟨_, exec_eq i s, rfl, rfl, ?_⟩
  cases i <;> rfl

/-- Settles O10: the closed form at the reset values, where every byte of the frame space is 0x00. -/
theorem firstExchangeAfterReset : Obligations.FirstExchangeAfterReset := by
  intro i
  refine ⟨_, exec_eq i State.reset, rfl, rfl, rfl, ?_, ?_⟩ <;> cases i <;> rfl

/-- Settles O17: LEDON's arm writes the mode after the entry, and the pin is 1 in that mode. -/
theorem ledOnForcesTheIndicatorOn : Obligations.LedOnForcesTheIndicatorOn := by
  intro s
  refine ⟨_, exec_ledOn s, exec_keeps_bytes (exec_ledOn s), fun level => rfl, ?_⟩
  rw [handlerEntry_sendReply_eq, setIndMode]

/-! ## Host programs -/

theorem runProgram_cons {i : Instr} {s t : State} (h : exec i s = .next t) (p : List Instr) :
    runProgram (i :: p) s = runProgram p t := by
  simp only [runProgram, h]

/-- An opcode other than RECEIVEDATA advances the cursor by one if it is NORMAL, else not at all. -/
theorem cursorAfter_eq_add_count {i : Instr} (h : i ≠ .receiveData) (c : Offset) :
    cursorAfter i c = c + BitVec.ofNat 4 ([i].count .normal) := by
  cases i with
  | receiveData => exact absurd rfl h
  | normal => rfl
  | fireRelay => exact (BitVec.add_zero c).symm
  | ledOn => exact (BitVec.add_zero c).symm
  | ledOff => exact (BitVec.add_zero c).symm
  | nop b => exact (BitVec.add_zero c).symm

/-- A program without RECEIVEDATA moves the cursor by its number of NORMALs (R130). -/
theorem runProgram_cur (p : List Instr) (s : State) (h : .receiveData ∉ p) :
    ∃ t, runProgram p s = .next t ∧ t.cur = s.cur + BitVec.ofNat 4 (p.count .normal) := by
  induction p generalizing s with
  | nil => exact ⟨s, rfl, (BitVec.add_zero s.cur).symm⟩
  | cons i p ih =>
    obtain ⟨hi, hp⟩ := List.ne_and_not_mem_of_not_mem_cons h
    obtain ⟨t, ht, hcur⟩ := ih (afterExchange i s) hp
    refine ⟨t, (runProgram_cons (exec_eq i s) p).trans ht, ?_⟩
    calc
      t.cur = cursorAfter i s.cur + BitVec.ofNat 4 (p.count .normal) := hcur
      _ = s.cur + BitVec.ofNat 4 ([i].count .normal + p.count .normal) := by
        rw [cursorAfter_eq_add_count (Ne.symm hi), BitVec.ofNat_add, BitVec.add_assoc]
      _ = s.cur + BitVec.ofNat 4 ((i :: p).count .normal) := by
        rw [← List.count_append, List.singleton_append]

/-- Settles O20: counting over the program, from the cursor as it is or from 1 after RECEIVEDATA. -/
theorem cursorCountsAdvances : Obligations.CursorCountsAdvances := by
  refine ⟨fun p s hp => ?_, fun p s hp => ?_⟩
  · obtain ⟨t, ht, hcur⟩ := runProgram_cur p s hp
    exact ⟨t, ht, by simp [hcur, BitVec.toNat_add]⟩
  · obtain ⟨t, ht, hcur⟩ := runProgram_cur p (afterExchange .receiveData s) hp
    refine ⟨t, (runProgram_cons (exec_eq _ s) p).trans ht, ?_⟩
    simp [hcur, afterExchange, cursorAfter, BitVec.toNat_add]

end Sys2Proof.Machine
end

section
/-! The step and reset: which event is delivered (log entry 1), that a byte overrun alone stops (log entry 8), and
the values of 70_reset_and_hazards.md R271. -/

namespace Sys2Proof.Machine

/-- Every event but a byte overrun answers a next state (00_scope.md R17). -/
theorem deliver_answers_next {e : Event} (h : ∀ b, e ≠ .overrun b) (s : State) : ∃ t, deliver e s = .next t := by
  cases e with
  | exchange b => exact exec_answers_next (decode b) s
  | overrun b => exact absurd rfl (h b)
  | reset => exact ⟨_, rfl⟩
  | tick => exact ⟨_, rfl⟩
  | seq => exact ⟨_, rfl⟩
  | adcDone r => exact ⟨_, rfl⟩
  | blink level => exact ⟨_, rfl⟩

/-- Settles O7: the next event is an overrun, which is refused, or one that answers. -/
theorem onlyAByteOverrunStops : Obligations.OnlyAByteOverrunStops := by
  intro s
  by_cases h : ∃ b, (nextEvent s).1 = .overrun b
  · obtain ⟨b, hb⟩ := h
    exact .inl ⟨b, hb, by rw [step, hb, deliver]⟩
  · have hne : ∀ b, (nextEvent s).1 ≠ .overrun b := not_exists.mp h
    exact .inr ⟨hne, deliver_answers_next hne (nextEvent s).2⟩

/-- Settles O6: the head of the queue, and without one the environment's choice. -/
theorem stepDeliversNextEvent : Obligations.StepDeliversNextEvent := by
  refine ⟨fun s e es h => step_eq_deliver_of_pending h, fun s h => ?_⟩
  simp only [step, nextEvent, h, beginStep]

/-- Settles O5: to deliver an exchange is to run the opcode its byte decodes to. -/
theorem stepRunsDecodedInstruction : Obligations.StepRunsDecodedInstruction :=
  fun _ _ _ h => step_eq_deliver_of_pending h

/-- No byte of the frame space is listed after reset (D6). -/
@[simp] theorem frameRead_reset (sl : Slot) (o : Offset) : frameRead State.reset sl o = 0x00#8 := rfl

@[simp] theorem sample_reset (sl : Slot) (c : Channel) : sample State.reset sl c = 0x0000#16 := by
  rw [sample, frameRead_reset, frameRead_reset]
  rfl

/-- Settles O8: the elements as State.reset lists them; no byte of the frame space is listed there. -/
theorem resetValues : Obligations.ResetValues :=
  ⟨sample_reset, rfl, rfl, rfl, rfl, rfl, rfl, rfl, rfl, rfl, rfl, rfl, rfl, rfl⟩

/-- Settles O9: the event is `resetBlock`, whose memory is that of State.reset. -/
theorem resetEventRestoresEveryElement : Obligations.ResetEventRestoresEveryElement :=
  fun s => ⟨resetBlock s, rfl, fun sl c => (sample_congr rfl sl c).trans (sample_reset sl c), rfl⟩

/-- Settles O44: the reset memory is empty, the flags and the mode are those before the first exchange, and the
sequencer is in IDLE. -/
theorem invariantAtReset : Obligations.InvariantAtReset where
  memory := wf_reset
  blink := rfl
  mode := ⟨fun _ => rfl, fun _ => rfl⟩
  frontEnd := nofun
  lastStored := by rintro (h | h) <;> cases h

/-- Settles O46: every sample is 0 after reset, as the record has it, and no sweep is in progress. -/
theorem frameRecordAtReset : Obligations.FrameRecordAtReset where
  publishedWhole := nofun
  activeSlot c := congrArg BitVec.toNat (sample_reset _ c)
  inactiveStored _ h := absurd h (Nat.not_lt_zero _)
  inactiveOlder c _ := congrArg BitVec.toNat (sample_reset _ c)
  whenIdle _ := rfl
  whenConverting := by rintro (h | h) <;> cases h
  whenSwept := by rintro (h | h) <;> cases h

end Sys2Proof.Machine
end

section
/-! The sampler sequencer (42_sampler_sequencer.md): each of its steps, its state table, and that no other agent
but reset touches what it owns. -/

namespace Sys2Proof.Machine

/-! ## Its steps, by its place in the sweep -/

theorem deliver_seq_of_setup {s : State} (h : s.seq = .setup) : deliver .seq s = .next (setup s) := by
  simp only [deliver, seqStep, h]

theorem deliver_seq_of_publish {s : State} (h : s.seq = .publish) : deliver .seq s = .next (publishStep s) := by
  simp only [deliver, seqStep, h]

theorem deliver_seq_of_pending_tick {s : State} (h : s.seq = .idle) (hp : s.tickPending = true) :
    deliver .seq s = .next (sweepStart s) := by
  simp only [deliver, seqStep, h, hp, if_true]

theorem deliver_seq_of_no_tick {s : State} (h : s.seq = .idle) (hp : s.tickPending = false) :
    deliver .seq s = .next s := by
  simp only [deliver, seqStep, h, hp, Bool.false_eq_true, if_false]

theorem deliver_adcDone_of_wait {s : State} (h : s.seq = .wait) (r : AdcResult) :
    deliver (.adcDone r) s = .next (store r s) := by
  simp only [deliver, adcDone, h]

/-- Settles O27: a tick writes the one bit, and writes the same value each time. -/
theorem ticksCoalesce : Obligations.TicksCoalesce := fun s => ⟨setTickPending s, rfl, rfl, rfl⟩

/-- Settles O28: a pending tick enables SWEEP_START, the one step from IDLE. -/
theorem sweepStartsOnlyOnAPendingTick : Obligations.SweepStartsOnlyOnAPendingTick :=
  fun _ h => ⟨deliver_seq_of_pending_tick h, deliver_seq_of_no_tick h⟩

/-- Settles O31: STORE is enabled in WAIT only. -/
theorem lateCompletionIsIgnored : Obligations.LateCompletionIsIgnored := by
  intro s r h
  obtain ⟨hwait, -⟩ | ⟨-, hkeep⟩ := adcDone_cases r s
  · exact absurd hwait h
  · exact congrArg Host.Outcome.next hkeep

/-- The class of a channel by its number (00_scope.md R10). -/
theorem chRef_eq (c : Channel) :
    chRef c = if c.toNat = 0 then .low else if c.toNat = 1 then .mid else .high := by
  revert c
  decide

/-- Settles O29: SETUP writes the two controls, the pulse and `seq`. -/
theorem setupStartsOneConversion : Obligations.SetupStartsOneConversion := by
  intro s h
  refine ⟨_, deliver_seq_of_setup h, ?_⟩
  rw [setup_eq]
  exact ⟨chRef_eq s.ch, rfl, rfl, rfl, fun _ _ => rfl, rfl⟩

/-! ## STORE -/

theorem eq_lastChannel_iff (c : Channel) : c = lastChannel ↔ c.toNat = 7 := by
  revert c
  decide

theorem ne_lastChannel_of_lt {c : Channel} (h : c.toNat < 7) : c ≠ lastChannel := by
  rw [Ne, eq_lastChannel_iff]
  omega

theorem toNat_next_channel {c : Channel} (h : c ≠ lastChannel) : (c + 1#3).toNat = c.toNat + 1 := by
  revert c
  decide

theorem store_of_last {s : State} (h : s.ch = lastChannel) (r : AdcResult) :
    (store r s).seq = .monitor ∧ (store r s).ch = s.ch := by
  simp [store_eq, h]

theorem store_of_not_last {s : State} (h : s.ch ≠ lastChannel) (r : AdcResult) :
    (store r s).seq = .setup ∧ (store r s).ch = s.ch + 1#3 := by
  simp [store_eq, h]

/-- Settles O30: STORE writes one sample of the inactive slot, and moves on by whether `ch` is the last. -/
theorem storeKeepsAQuarterOfTheResult : Obligations.StoreKeepsAQuarterOfTheResult := by
  intro s r hwait
  refine ⟨store r s, deliver_adcDone_of_wait hwait r, sample_store_toNat r s,
    fun sl o h => frameRead_store_other r s h, fun hlt => ?_, fun hlast => ?_, ?_⟩
  · have hne := ne_lastChannel_of_lt hlt
    obtain ⟨hseq, hch⟩ := store_of_not_last hne r
    exact ⟨hseq, by rw [hch, toNat_next_channel hne]⟩
  · exact store_of_last ((eq_lastChannel_iff s.ch).mpr hlast) r
  · rw [store_eq]

/-! ## MONITOR and PUBLISH -/

/-- Settles O33: the two samples are all the monitor reads. -/
theorem monitorReadsOnlyTempAndCell0 : Obligations.MonitorReadsOnlyTempAndCell0 := by
  intro p s s' htemp hcell0 hrelay
  rw [monitorWith_eq, monitorWith_eq, cell0Channel, tempChannel, htemp, hcell0, hrelay]
  exact ⟨rfl, rfl⟩

/-- Settles O34: PUBLISH writes `active` and `seq`; what the next turn does is decided by the tick alone. -/
theorem publishFlipsTheSelector : Obligations.PublishFlipsTheSelector := by
  intro s h
  have hflip : ∀ a : Slot, (a ^^^ 1#1).toNat = 1 - a.toNat := by decide
  exact ⟨publishStep s, deliver_seq_of_publish h, hflip s.active, flip_flip s.active, fun _ _ => rfl, rfl,
    fun hp => ⟨_, deliver_seq_of_pending_tick rfl hp, rfl⟩, fun hp => deliver_seq_of_no_tick rfl hp⟩

/-! ## The state table -/

/-- SEQ's turn in the table of R184. -/
theorem seqStep_seq (s : State) :
    (seqStep s).seq = match s.seq with
      | .idle => if s.tickPending then .setup else .idle
      | .setup => .wait
      | .wait => .wait
      | .monitor => .publish
      | .publish => .idle := by
  obtain ⟨hs, hp, h⟩ | ⟨hs, hp, h⟩ | ⟨hs, h⟩ | ⟨hs, h⟩ | ⟨hs, h⟩ | ⟨hs, h⟩ := seqStep_cases s
  · simp [h, hs, hp]
  · simp [h, hs, hp]
  all_goals simp [h, hs, setup_eq, publishStep_eq, monitorStep]

/-- A completion in the table of R184. -/
theorem adcDone_seq (r : AdcResult) (s : State) :
    (adcDone r s).seq = match s.seq with
      | .idle => .idle
      | .setup => .setup
      | .wait => if s.ch.toNat < 7 then .setup else .monitor
      | .monitor => .monitor
      | .publish => .publish := by
  obtain ⟨hwait, h⟩ | ⟨hne, h⟩ := adcDone_cases r s
  · rw [h, hwait]
    by_cases hlast : s.ch = lastChannel
    · simp [(store_of_last hlast r).1, (eq_lastChannel_iff s.ch).mp hlast]
    · have hlt : s.ch.toNat < 7 := by
        rw [eq_lastChannel_iff] at hlast
        omega
      simp [(store_of_not_last hlast r).1, hlt]
  · rw [h]
    cases hs : s.seq with
    | wait => exact absurd hs hne
    | idle => rfl
    | setup => rfl
    | monitor => rfl
    | publish => rfl

/-- What the sequencer owns (10_state.md R20, the written-by column). -/
structure SameSequencer (s t : State) : Prop where
  seq : t.seq = s.seq
  ch : t.ch = s.ch
  active : t.active = s.active
  adcRef : t.adcRef = s.adcRef
  adcMux : t.adcMux = s.adcMux
  dacSetpoint : t.dacSetpoint = s.dacSetpoint
  frameMem : t.frameMem = s.frameMem

theorem blinkTimer_eq (level : Bool) (s : State) :
    blinkTimer level s = { s with blinkOn := if s.blinkEnable then level else s.blinkOn } := by
  unfold blinkTimer
  split <;> rfl

/-- The events of the other agents, reset apart, touch nothing of the sequencer's. -/
theorem deliver_keeps_sequencer {e : Event} {s t : State} (he : e ≠ .reset) (hsweep : sweepEvent e = false)
    (h : deliver e s = .next t) : SameSequencer s t := by
  obtain ⟨rfl, -⟩ | ⟨b, -, hx⟩ | ⟨-, rfl⟩ | ⟨rfl, -⟩ | ⟨r, rfl, -⟩ | ⟨level, -, rfl⟩ := deliver_next_cases h
  · exact absurd rfl he
  · rw [eq_afterExchange_of_exec hx]
    exact ⟨rfl, rfl, rfl, rfl, rfl, rfl, rfl⟩
  · exact ⟨rfl, rfl, rfl, rfl, rfl, rfl, rfl⟩
  · cases hsweep
  · cases hsweep
  · rw [blinkTimer_eq]
    exact ⟨rfl, rfl, rfl, rfl, rfl, rfl, rfl⟩

/-- Settles O35: the two rows of the sequencer's table, and that no other agent moves it. -/
theorem sequencerStateTable : Obligations.SequencerStateTable := by
  intro e s t he h
  refine ⟨?_, ?_, fun hsweep => ?_⟩
  · rintro rfl
    rw [← Host.Outcome.next.inj h]
    exact seqStep_seq s
  · rintro r rfl
    rw [← Host.Outcome.next.inj h]
    exact adcDone_seq r s
  · have hkeep := deliver_keeps_sequencer he hsweep h
    exact ⟨hkeep.seq, hkeep.ch, hkeep.active⟩

end Sys2Proof.Machine
end

section
/-! What each agent's step can write (10_state.md R20, the written-by column), and the indicator and the relay
(43_monitor_relay_indicator.md sections 2 and 3). -/

namespace Sys2Proof.Machine

/-! ## Frames of the steps -/

/-- SEQ's turn writes nothing of the host's, no byte of the frame space and nothing of the indicator. -/
theorem seqStep_frame (s : State) :
    seqStep s = { s with
      active := (seqStep s).active, relayOpen := (seqStep s).relayOpen, tickPending := (seqStep s).tickPending,
      seq := (seqStep s).seq, ch := (seqStep s).ch, adcRef := (seqStep s).adcRef, adcMux := (seqStep s).adcMux,
      dacSetpoint := (seqStep s).dacSetpoint, outAdcStart := (seqStep s).outAdcStart } := by
  obtain ⟨-, -, h⟩ | ⟨-, -, h⟩ | ⟨-, h⟩ | ⟨-, h⟩ | ⟨-, h⟩ | ⟨-, h⟩ := seqStep_cases s
  · rw [h]
  · rw [h, sweepStart]
  · rw [h, setup_eq]
  · rw [h]
  · rw [h, monitorStep_frame]
  · rw [h, publishStep_eq]

/-- A completion writes the frame space and the place in the sweep. -/
theorem adcDone_frame (r : AdcResult) (s : State) :
    adcDone r s = { s with
      frameMem := (adcDone r s).frameMem, ch := (adcDone r s).ch, seq := (adcDone r s).seq } := by
  obtain ⟨-, h⟩ | ⟨-, h⟩ := adcDone_cases r s
  · rw [h, store_eq]
  · rw [h]

/-- No event takes or places a pending one: the queue is the step's alone (log entry 1). -/
theorem deliver_keeps_inputs {e : Event} {s t : State} (h : deliver e s = .next t) : t.inputs = s.inputs := by
  obtain ⟨-, rfl⟩ | ⟨b, -, hx⟩ | ⟨-, rfl⟩ | ⟨-, rfl⟩ | ⟨r, -, rfl⟩ | ⟨level, -, rfl⟩ := deliver_next_cases h
  · rfl
  · exact exec_keeps_inputs hx
  · rfl
  · rw [seqStep_frame]
  · rw [adcDone_frame]
  · rw [blinkTimer_eq]

/-- The elements that decide the pin, but for the blink timer's level. -/
structure SameIndicator (s t : State) : Prop where
  stillBlinking : t.stillBlinking = s.stillBlinking
  blinkEnable : t.blinkEnable = s.blinkEnable
  indMode : t.indMode = s.indMode

/-- The indicator is written by exchanges and reset only. -/
theorem deliver_keeps_indicator {e : Event} {s t : State} (he : e ≠ .reset) (hx : ∀ b, e ≠ .exchange b)
    (h : deliver e s = .next t) : SameIndicator s t := by
  obtain ⟨rfl, -⟩ | ⟨b, rfl, -⟩ | ⟨-, rfl⟩ | ⟨-, rfl⟩ | ⟨r, -, rfl⟩ | ⟨level, -, rfl⟩ := deliver_next_cases h
  · exact absurd rfl he
  · exact absurd rfl (hx b)
  · exact ⟨rfl, rfl, rfl⟩
  · rw [seqStep_frame]
    exact ⟨rfl, rfl, rfl⟩
  · rw [adcDone_frame]
    exact ⟨rfl, rfl, rfl⟩
  · rw [blinkTimer_eq]
    exact ⟨rfl, rfl, rfl⟩

/-! ## The indicator -/

/-- Outside AUTO the pin is a function of the mode (R211). -/
theorem led_eq_of_indMode {s t : State} (hmode : t.indMode = s.indMode) (hauto : s.indMode ≠ .auto) :
    led t = led s := by
  rw [led, led, hmode]
  cases hs : s.indMode with
  | auto => exact absurd hs hauto
  | on => rfl
  | off => rfl

/-- No opcode enters AUTO (R212). -/
theorem modeAfter_ne_auto (i : Instr) {m : IndMode} (h : m ≠ .auto) : modeAfter i m ≠ .auto := by
  cases i with
  | ledOn => nofun
  | ledOff => nofun
  | normal => exact h
  | receiveData => exact h
  | fireRelay => exact h
  | nop b => exact h

theorem modeAfter_of_not_led {i : Instr} (hon : i ≠ .ledOn) (hoff : i ≠ .ledOff) (m : IndMode) :
    modeAfter i m = m := by
  cases i with
  | ledOn => exact absurd rfl hon
  | ledOff => exact absurd rfl hoff
  | normal => rfl
  | receiveData => rfl
  | fireRelay => rfl
  | nop b => rfl

/-- A byte that is not the one of an opcode does not decode to it. -/
theorem decode_ne_of_ne_encode {b : Byte} {i : Instr} (h : b ≠ encode i) : decode b ≠ i := by
  rintro rfl
  exact h (encode_decode b).symm

/-- The entry of an exchange leaves AUTO in any case (R121, D18). -/
theorem afterExchange_indMode_ne_auto (i : Instr) {s : State} (h : s.stillBlinking = true ∨ s.indMode ≠ .auto) :
    (afterExchange i s).indMode ≠ .auto := by
  refine modeAfter_ne_auto i ?_
  split
  · nofun
  · next hfirst => exact h.resolve_left hfirst

/-- Settles O40: an exchange leaves a mode other than AUTO, and no other event writes the mode. -/
theorem modeLeavesAutoForGood : Obligations.ModeLeavesAutoForGood := by
  intro e s t he h hauto
  by_cases hx : ∃ b, e = .exchange b
  · obtain ⟨b, rfl⟩ := hx
    obtain rfl := eq_afterExchange_of_exec h
    have hne := afterExchange_indMode_ne_auto (decode b) (.inr hauto)
    refine ⟨hne, fun level => led_eq_of_indMode rfl hne, fun hlater hon hoff => led_eq_of_indMode ?_ hauto⟩
    have hon : decode b ≠ .ledOn := decode_ne_of_ne_encode (mt (congrArg Event.exchange) hon)
    have hoff : decode b ≠ .ledOff := decode_ne_of_ne_encode (mt (congrArg Event.exchange) hoff)
    simp [afterExchange, hlater, modeAfter_of_not_led hon hoff]
  · have hkeep := deliver_keeps_indicator he (not_exists.mp hx) h
    have hne : t.indMode ≠ .auto := hkeep.indMode ▸ hauto
    exact ⟨hne, fun level => led_eq_of_indMode rfl hne, fun _ _ _ => led_eq_of_indMode hkeep.indMode hauto⟩

/-- Settles O41: the timer writes its level only, and only while it is enabled. -/
theorem blinkTimerDrivesOnlyAuto : Obligations.BlinkTimerDrivesOnlyAuto := by
  intro s level
  refine ⟨_, rfl, fun hon => ?_, fun hoff => ?_, fun hauto => ?_⟩
  · have ht : blinkTimer level s = { s with blinkOn := level } := by rw [blinkTimer, if_pos hon]
    exact ⟨ht, fun hauto => by rw [ht, led, hauto]⟩
  · rw [blinkTimer, hoff]
    rfl
  · exact led_eq_of_indMode (by rw [blinkTimer_eq]) hauto

/-! ## The relay -/

/-- One of the monitor's checks fires on the inactive slot (R203, R204). -/
def MonitorTrips (s : State) : Prop :=
  Config.supplyEstimate (sample s (inactiveSlot s) cell0Channel) ≤ Config.vMin ∨
    Config.tMax ≤ Config.temperature (sample s (inactiveSlot s) tempChannel)

theorem seqStep_relayOpen_iff (s : State) :
    (seqStep s).relayOpen = true ↔ s.relayOpen = true ∨ (s.seq = .monitor ∧ MonitorTrips s) := by
  obtain ⟨hs, -, h⟩ | ⟨hs, -, h⟩ | ⟨hs, h⟩ | ⟨hs, h⟩ | ⟨hs, h⟩ | ⟨hs, h⟩ := seqStep_cases s
  case inr.inr.inr.inr.inl =>
    rw [h, monitorStep_relayOpen_iff, MonitorTrips]
    simp [hs]
  all_goals simp [h, hs, setup_eq, publishStep_eq]

theorem afterExchange_relayOpen_iff (b : Byte) (s : State) :
    (afterExchange (decode b) s).relayOpen = true ↔ s.relayOpen = true ∨ b = 0x02#8 := by
  have hdecode : decode b = .fireRelay ↔ b = 0x02#8 :=
    ⟨fun h => (encode_decode b).symm.trans (congrArg encode h), fun h => h ▸ rfl⟩
  simp [afterExchange, hdecode]

/-- After an event other than reset the relay is open if it was, on FIRERELAY, or if a check of the MONITOR step
fired (R208). -/
theorem deliver_relayOpen_iff {e : Event} {s t : State} (he : e ≠ .reset) (h : deliver e s = .next t) :
    t.relayOpen = true ↔
      s.relayOpen = true ∨ e = .exchange 0x02#8 ∨ (e = .seq ∧ s.seq = .monitor ∧ MonitorTrips s) := by
  obtain ⟨rfl, -⟩ | ⟨b, rfl, hx⟩ | ⟨rfl, rfl⟩ | ⟨rfl, rfl⟩ | ⟨r, rfl, rfl⟩ | ⟨level, rfl, rfl⟩ :=
    deliver_next_cases h
  · exact absurd rfl he
  · rw [eq_afterExchange_of_exec hx, afterExchange_relayOpen_iff]
    simp
  · simp
  · simp [seqStep_relayOpen_iff]
  · rw [adcDone_frame]
    simp
  · rw [blinkTimer_eq]
    simp

theorem afterExchange_on_relay (i : Instr) (s : State) (v : Bool) :
    afterExchange i { s with relayOpen := v } =
      { afterExchange i s with relayOpen := v || decide (i = .fireRelay) } := by
  cases i <;> rfl

/-- The sequencer does not read the relay bit (R209). -/
theorem seqStep_on_relay (s : State) (v : Bool) :
    ∃ w, seqStep { s with relayOpen := v } = { seqStep s with relayOpen := w } := by
  cases hs : s.seq with
  | idle =>
    cases hp : s.tickPending with
    | false => exact ⟨v, by simp only [seqStep, hs, hp, Bool.false_eq_true, if_false]⟩
    | true => exact ⟨v, by simp only [seqStep, hs, hp, if_true, sweepStart]⟩
  | setup => exact ⟨v, by simp only [seqStep, hs, setup_eq]⟩
  | wait => exact ⟨v, by simp only [seqStep, hs]⟩
  | monitor => exact ⟨_, by simp only [seqStep, hs, monitorStep, monitor, monitorWith_eq]; rfl⟩
  | publish => exact ⟨v, by simp only [seqStep, hs, publishStep_eq]⟩

/-- A completion does not read the relay bit (R209). -/
theorem adcDone_on_relay (r : AdcResult) (s : State) (v : Bool) :
    adcDone r { s with relayOpen := v } = { adcDone r s with relayOpen := v } := by
  cases hs : s.seq with
  | wait => simp only [adcDone, hs, store_eq]; rfl
  | idle => simp only [adcDone, hs]
  | setup => simp only [adcDone, hs]
  | monitor => simp only [adcDone, hs]
  | publish => simp only [adcDone, hs]

/-- Settles O38: the writers are those of `deliver_relayOpen_iff`, and no event reads the bit. -/
theorem relayIsSetOnlyAndUnread : Obligations.RelayIsSetOnlyAndUnread := by
  refine ⟨fun e s t he h => ?_, fun s => ⟨_, rfl, rfl⟩, fun e s t v h => ?_⟩
  · have hiff := deliver_relayOpen_iff he h
    refine ⟨fun hopen => hiff.mpr (.inl hopen), fun hchanged => ?_⟩
    by_contra hno
    obtain ⟨hfire, hmonitor⟩ := not_or.mp hno
    refine hchanged (Bool.eq_iff_iff.mpr (hiff.trans ⟨?_, .inl⟩))
    rintro (hopen | hx | ⟨hseq, hs, -⟩)
    · exact hopen
    · exact absurd hx hfire
    · exact absurd ⟨hseq, hs⟩ hmonitor
  · obtain ⟨rfl, rfl⟩ | ⟨b, rfl, hx⟩ | ⟨rfl, rfl⟩ | ⟨rfl, rfl⟩ | ⟨r, rfl, rfl⟩ | ⟨level, rfl, rfl⟩ :=
      deliver_next_cases h
    · exact ⟨false, rfl⟩
    · rw [eq_afterExchange_of_exec hx, deliver, exec_eq, afterExchange_on_relay]
      exact ⟨_, rfl⟩
    · exact ⟨v, rfl⟩
    · obtain ⟨w, hw⟩ := seqStep_on_relay s v
      exact ⟨w, congrArg Host.Outcome.next hw⟩
    · exact ⟨v, congrArg Host.Outcome.next (adcDone_on_relay r s v)⟩
    · rw [deliver, blinkTimer_eq, blinkTimer_eq]
      exact ⟨v, rfl⟩

/-! ## Two agents at one moment (60_exceptions.md R238) -/

/-- No opcode reads or writes `tick_pending`. -/
theorem afterExchange_setTickPending (i : Instr) (s : State) :
    afterExchange i (setTickPending s) = setTickPending (afterExchange i s) := by
  cases i <;> rfl

/-- Settles O42: neither of the two reads or writes what the other writes. -/
theorem exchangeAndTickCommute : Obligations.ExchangeAndTickCommute := by
  intro s b
  refine ⟨_, _, exec_eq (decode b) s, rfl, _, rfl, ?_⟩
  rw [← afterExchange_setTickPending]
  exact exec_eq (decode b) (setTickPending s)

/-- Settles O43: NORMAL does not write `seq`, so PUBLISH stays enabled; only the staged byte depends on `active`. -/
theorem normalAndPublishDifferInTheStagedByte : Obligations.NormalAndPublishDifferInTheStagedByte := by
  intro s h
  have hkeep : (afterExchange .normal s).seq = .publish := h
  exact ⟨_, _, _, _, exec_eq .normal s, deliver_seq_of_publish hkeep, deliver_seq_of_publish h,
    exec_eq .normal (publishStep s), rfl, rfl, rfl, rfl⟩

end Sys2Proof.Machine
end

section
/-! What every step keeps: the invariant of 10_state.md R40, the record of which sweep each slot holds
(20_memory.md R72), and the samples' range (42_sampler_sequencer.md R181). -/

namespace Sys2Proof.Machine

/-- The state an event is delivered to is the one before the step but for the model's own fields (log entry 1). -/
theorem nextEvent_state (s : State) :
    ∃ es n, (nextEvent s).2 = { s with inputs := es, draws := n, outReply := none, outAdcStart := false } := by
  unfold nextEvent
  split
  · next e es h => exact ⟨es, s.draws, rfl⟩
  · next h => exact ⟨s.inputs, s.draws + 1, rfl⟩

/-! ## The invariant -/

/-- The invariant speaks of the indicator and of what the sequencer owns. -/
theorem inv_congr {s t : State} (h : Inv s) (hi : SameIndicator s t) (hq : SameSequencer s t) : Inv t where
  memory := hq.frameMem ▸ h.memory
  blink := by rw [hi.blinkEnable, hi.stillBlinking, h.blink]
  mode := by rw [hi.indMode, hi.stillBlinking, h.mode]
  frontEnd := by
    rw [hq.seq, hq.ch, hq.adcRef, hq.adcMux]
    exact h.frontEnd
  lastStored := by
    rw [hq.seq, hq.ch]
    exact h.lastStored

theorem inv_nextEvent {s : State} (h : Inv s) : Inv (nextEvent s).2 := by
  obtain ⟨es, n, hs⟩ := nextEvent_state s
  rw [hs]
  exact inv_congr h ⟨rfl, rfl, rfl⟩ ⟨rfl, rfl, rfl, rfl, rfl, rfl, rfl⟩

theorem inv_resetBlock (s : State) : Inv (resetBlock s) :=
  inv_congr (s := State.reset) invariantAtReset ⟨rfl, rfl, rfl⟩ ⟨rfl, rfl, rfl, rfl, rfl, rfl, rfl⟩

/-- An exchange ends the blinking, the enable and AUTO together, and writes nothing of the sequencer's. -/
theorem inv_afterExchange (i : Instr) {s : State} (h : Inv s) : Inv (afterExchange i s) where
  memory := h.memory
  blink := by
    show (if s.stillBlinking then false else s.blinkEnable) = false
    rw [h.blink]
    exact ite_eq_left_iff.mpr Bool.eq_false_of_not_eq_true
  mode := by
    have hfirst : s.stillBlinking = true ∨ s.indMode ≠ .auto := by
      rw [Ne, h.mode]
      exact em _
    exact iff_of_false (afterExchange_indMode_ne_auto i hfirst) Bool.false_ne_true
  frontEnd := h.frontEnd
  lastStored := h.lastStored

/-- SETUP presents the controls of `ch` as it enters WAIT; MONITOR and PUBLISH are entered with `ch` kept. -/
theorem inv_seqStep {s : State} (h : Inv s) : Inv (seqStep s) := by
  obtain ⟨-, -, ht⟩ | ⟨-, -, ht⟩ | ⟨-, ht⟩ | ⟨-, ht⟩ | ⟨hs, ht⟩ | ⟨hs, ht⟩ := seqStep_cases s <;> rw [ht]
  · exact h
  · rw [sweepStart]
    exact ⟨h.memory, h.blink, h.mode, nofun, by simp⟩
  · rw [setup_eq]
    exact ⟨h.memory, h.blink, h.mode, fun _ => ⟨rfl, rfl⟩, by simp⟩
  · exact h
  · rw [monitorStep_frame]
    exact ⟨h.memory, h.blink, h.mode, nofun, fun _ => h.lastStored (.inl hs)⟩
  · rw [publishStep_eq]
    exact ⟨h.memory, h.blink, h.mode, nofun, by simp⟩

/-- STORE writes inside the frame space and reaches MONITOR from the last channel only. -/
theorem inv_adcDone (r : AdcResult) {s : State} (h : Inv s) : Inv (adcDone r s) := by
  obtain ⟨-, ht⟩ | ⟨-, ht⟩ := adcDone_cases r s
  case inr =>
    rw [ht]
    exact h
  have hmem : Memory.wf (store r s).frameMem := store_frameMem r s ▸ wf_frameWrite _ _ _ h.memory
  have hframe := adcDone_frame r s
  rw [ht] at hframe ⊢
  have hblink : (store r s).blinkEnable = (store r s).stillBlinking := by
    rw [hframe]
    exact h.blink
  have hmode : (store r s).indMode = .auto ↔ (store r s).stillBlinking = true := by
    rw [hframe]
    exact h.mode
  by_cases hlast : s.ch = lastChannel
  · obtain ⟨hseq, hch⟩ := store_of_last hlast r
    exact ⟨hmem, hblink, hmode, by simp [hseq], fun _ => hch.trans hlast⟩
  · obtain ⟨hseq, -⟩ := store_of_not_last hlast r
    exact ⟨hmem, hblink, hmode, by simp [hseq], by simp [hseq]⟩

theorem inv_deliver {e : Event} {s t : State} (hs : Inv s) (h : deliver e s = .next t) : Inv t := by
  obtain ⟨-, rfl⟩ | ⟨b, -, hx⟩ | ⟨-, rfl⟩ | ⟨-, rfl⟩ | ⟨r, -, rfl⟩ | ⟨level, -, rfl⟩ := deliver_next_cases h
  · exact inv_resetBlock s
  · rw [eq_afterExchange_of_exec hx]
    exact inv_afterExchange _ hs
  · exact inv_congr hs ⟨rfl, rfl, rfl⟩ ⟨rfl, rfl, rfl, rfl, rfl, rfl, rfl⟩
  · exact inv_seqStep hs
  · exact inv_adcDone r hs
  · rw [blinkTimer_eq]
    exact inv_congr hs ⟨rfl, rfl, rfl⟩ ⟨rfl, rfl, rfl, rfl, rfl, rfl, rfl⟩

/-- Settles O45: every event keeps the invariant, and taking it from the queue touches no block element. -/
theorem everyStepKeepsTheInvariant : Obligations.EveryStepKeepsTheInvariant :=
  fun _ _ hs h => inv_deliver (inv_nextEvent hs) h

/-! ## Which sweep a slot holds -/

/-- The record goes on with the frames and the selector as they are, where it fits the place in the sweep. -/
theorem frameRecord_of_same_frames {h : History} {s t : State} (hr : FrameRecord h s)
    (hmem : t.frameMem = s.frameMem) (hactive : t.active = s.active)
    (hidle : t.seq = .idle → h.current = [])
    (hconverting : t.seq = .setup ∨ t.seq = .wait → h.current.length = t.ch.toNat)
    (hswept : t.seq = .monitor ∨ t.seq = .publish → h.current.length = 8) : FrameRecord h t where
  publishedWhole := hr.publishedWhole
  activeSlot c := by
    rw [sample_congr hmem, hactive]
    exact hr.activeSlot c
  inactiveStored c hc := by
    rw [sample_congr hmem, inactiveSlot, hactive]
    exact hr.inactiveStored c hc
  inactiveOlder c hc := by
    rw [sample_congr hmem, inactiveSlot, hactive]
    exact hr.inactiveOlder c hc
  whenIdle := hidle
  whenConverting := hconverting
  whenSwept := hswept

theorem frameRecord_congr {h : History} {s t : State} (hr : FrameRecord h s) (hq : SameSequencer s t) :
    FrameRecord h t := by
  refine frameRecord_of_same_frames hr hq.frameMem hq.active ?_ ?_ ?_
  · rw [hq.seq]
    exact hr.whenIdle
  · rw [hq.seq, hq.ch]
    exact hr.whenConverting
  · rw [hq.seq]
    exact hr.whenSwept

theorem frameRecord_nextEvent {h : History} {s : State} (hr : FrameRecord h s) : FrameRecord h (nextEvent s).2 := by
  obtain ⟨es, n, hs⟩ := nextEvent_state s
  rw [hs]
  exact frameRecord_congr hr ⟨rfl, rfl, rfl, rfl, rfl, rfl, rfl⟩

/-- PUBLISH: the inactive slot, whose eight channels this sweep has stored, becomes the active one (R179). -/
theorem frameRecord_publishStep {h : History} {s : State} (hs : s.seq = .publish) (hr : FrameRecord h s) :
    FrameRecord ⟨[], some h.current, h.published⟩ (publishStep s) := by
  have hlength : h.current.length = 8 := hr.whenSwept (.inr hs)
  have hold : inactiveSlot (publishStep s) = s.active := flip_flip s.active
  refine ⟨?_, fun c => ?_, nofun, fun c _ => ?_, fun _ => rfl, ?_, ?_⟩
  · rintro rs ⟨⟩
    exact hlength
  · rw [sample_congr (publishStep_frameMem s), publishStep_active]
    exact hr.inactiveStored c (by rw [hlength]; exact c.isLt)
  · rw [sample_congr (publishStep_frameMem s), hold]
    exact hr.activeSlot c
  · simp [publishStep_eq]
  · simp [publishStep_eq]

/-- SEQ's other turns move no sample; the count of stored channels fits the place each of them reaches. -/
theorem frameRecord_seqStep {h : History} {s : State} (hr : FrameRecord h s) :
    FrameRecord (h.next .seq s) (seqStep s) := by
  obtain ⟨hs, -, ht⟩ | ⟨hs, -, ht⟩ | ⟨hs, ht⟩ | ⟨hs, ht⟩ | ⟨hs, ht⟩ | ⟨hs, ht⟩ := seqStep_cases s <;>
    simp only [ht, History.next, hs, reduceCtorEq, if_false, if_true]
  · exact hr
  · have hnone : h.current.length = tempChannel.toNat := congrArg List.length (hr.whenIdle hs)
    exact frameRecord_of_same_frames hr rfl rfl (by simp) (fun _ => hnone) (by simp)
  · rw [setup_eq]
    exact frameRecord_of_same_frames hr rfl rfl nofun (fun _ => hr.whenConverting (.inl hs)) (by simp)
  · exact hr
  · rw [monitorStep_frame]
    exact frameRecord_of_same_frames hr rfl rfl nofun (by simp) (fun _ => hr.whenSwept (.inl hs))
  · exact frameRecord_publishStep hs hr

/-- STORE leaves every other sample alone. -/
theorem sample_store_other (r : AdcResult) (s : State) {sl : Slot} {c : Channel}
    (h : (sl, c) ≠ (inactiveSlot s, s.ch)) : sample (store r s) sl c = sample s sl c := by
  rw [sample_congr (store_frameMem r s), sample_frameWrite_other s _ h]

@[simp] theorem inactiveSlot_store (r : AdcResult) (s : State) : inactiveSlot (store r s) = inactiveSlot s := by
  rw [inactiveSlot, store_active, inactiveSlot]

theorem sample_store_active (r : AdcResult) (s : State) (c : Channel) :
    sample (store r s) s.active c = sample s s.active c :=
  sample_store_other r s fun heq => inactiveSlot_ne s (congrArg Prod.fst heq).symm

theorem sample_store_of_ne (r : AdcResult) {s : State} {c : Channel} (h : c ≠ s.ch) :
    sample (store r s) (inactiveSlot s) c = sample s (inactiveSlot s) c :=
  sample_store_other r s fun heq => h (congrArg Prod.snd heq)

/-- STORE adds the result to those of the sweep in progress, as the sample of the next channel (R177). -/
theorem frameRecord_store {h : History} {s : State} (r : AdcResult) (hs : s.seq = .wait) (hr : FrameRecord h s) :
    FrameRecord { h with current := h.current ++ [r] } (store r s) := by
  have hlength : h.current.length = s.ch.toNat := hr.whenConverting (.inr hs)
  have hlast := eq_lastChannel_iff s.ch
  refine ⟨hr.publishedWhole, fun c => ?_, fun c hc => ?_, fun c hc => ?_, ?_, ?_, ?_⟩
  · rw [store_active, sample_store_active]
    exact hr.activeSlot c
  · rw [inactiveSlot_store]
    by_cases hch : c = s.ch
    · rw [hch, sample_store_toNat, recordedSample, ← hlength, List.getD_append_right _ _ _ _ le_rfl]
      simp
    · have hlt : c.toNat < h.current.length := by
        have : c.toNat ≠ s.ch.toNat := fun heq => hch (BitVec.eq_of_toNat_eq heq)
        simp only [List.length_append, List.length_singleton] at hc
        omega
      rw [sample_store_of_ne r hch, hr.inactiveStored c hlt, recordedSample, recordedSample,
        List.getD_append _ _ _ _ hlt]
  · simp only [List.length_append, List.length_singleton] at hc
    have hch : c ≠ s.ch := fun heq => by
      rw [heq] at hc
      omega
    rw [inactiveSlot_store, sample_store_of_ne r hch]
    exact hr.inactiveOlder c (by omega)
  all_goals
    by_cases hl : s.ch = lastChannel
    · simp [store_of_last hl r, hlength, hlast.mp hl]
    · simp [store_of_not_last hl r, hlength, toNat_next_channel hl]

theorem frameRecord_adcDone {h : History} {s : State} (r : AdcResult) (hr : FrameRecord h s) :
    FrameRecord (h.next (.adcDone r) s) (adcDone r s) := by
  obtain ⟨hs, ht⟩ | ⟨hs, ht⟩ := adcDone_cases r s
  · rw [ht, History.next, if_pos hs]
    exact frameRecord_store r hs hr
  · rw [ht, History.next, if_neg hs]
    exact hr

/-- An event of another agent is not recorded. -/
theorem history_next_of_not_sweepEvent (h : History) {e : Event} (s : State) (he : e ≠ .reset)
    (hsweep : sweepEvent e = false) : h.next e s = h := by
  cases e with
  | reset => exact absurd rfl he
  | seq => cases hsweep
  | adcDone r => cases hsweep
  | exchange b => rfl
  | overrun b => rfl
  | tick => rfl
  | blink level => rfl

theorem frameRecord_deliver {h : History} {e : Event} {s t : State} (hr : FrameRecord h s)
    (hd : deliver e s = .next t) : FrameRecord (h.next e s) t := by
  by_cases hreset : e = .reset
  · subst hreset
    obtain rfl := Host.Outcome.next.inj hd
    exact frameRecord_congr (s := State.reset) frameRecordAtReset ⟨rfl, rfl, rfl, rfl, rfl, rfl, rfl⟩
  by_cases hsweep : sweepEvent e = false
  · rw [history_next_of_not_sweepEvent h s hreset hsweep]
    exact frameRecord_congr hr (deliver_keeps_sequencer hreset hsweep hd)
  cases e with
  | seq =>
    obtain rfl := Host.Outcome.next.inj hd
    exact frameRecord_seqStep hr
  | adcDone r =>
    obtain rfl := Host.Outcome.next.inj hd
    exact frameRecord_adcDone r hr
  | _ => exact absurd rfl hsweep

/-- Settles O47: STORE extends the record of the sweep in progress, PUBLISH makes it the published one, and no
other event but reset touches a slot. -/
theorem noStepTearsAFrame : Obligations.NoStepTearsAFrame :=
  fun _ _ _ hr h => frameRecord_deliver (frameRecord_nextEvent hr) h

/-! ## The range of the samples -/

theorem samplesTenBit_of_same_memory {s t : State} (hmem : t.frameMem = s.frameMem) (h : SamplesTenBit s) :
    SamplesTenBit t :=
  fun sl c => sample_congr hmem sl c ▸ h sl c

theorem samplesTenBit_reset : SamplesTenBit State.reset := by
  intro sl c
  rw [sample_reset]
  decide

/-- A quarter of an in-contract result is at most 1023 (30_encoding.md R106). -/
theorem samplesTenBit_store {r : AdcResult} {s : State} (hr : r.toNat ≤ Config.adcResultMax) (h : SamplesTenBit s) :
    SamplesTenBit (store r s) := by
  intro sl c
  by_cases hsc : (sl, c) = (inactiveSlot s, s.ch)
  · obtain ⟨rfl, rfl⟩ := Prod.mk.inj hsc
    rw [sample_store_toNat]
    rw [Config.adcResultMax, Config.oversample, Config.adcWidth] at hr
    omega
  · rw [sample_store_other r s hsc]
    exact h sl c

theorem samplesTenBit_deliver {e : Event} {s t : State} (hs : SamplesTenBit s) (he : inContract e)
    (h : deliver e s = .next t) : SamplesTenBit t := by
  by_cases hreset : e = .reset
  · subst hreset
    obtain rfl := Host.Outcome.next.inj h
    exact samplesTenBit_of_same_memory rfl samplesTenBit_reset
  obtain ⟨r, rfl, -, rfl⟩ | ⟨-, -, rfl⟩ | ⟨hmem, -⟩ := deliver_frame_cases hreset h
  · exact samplesTenBit_store he hs
  · exact samplesTenBit_of_same_memory (publishStep_frameMem s) hs
  · exact samplesTenBit_of_same_memory hmem hs

theorem toNat_highByte (v : Sample) : (highByte v).toNat = v.toNat / 256 := by
  rw [highByte, BitVec.extractLsb'_toNat, Nat.shiftRight_eq_div_pow, Nat.mod_eq_of_lt (by omega)]

/-- Settles O48: STORE alone changes a sample; the byte at an odd offset is the high byte of one. -/
theorem inContractSamplesStayTenBit : Obligations.InContractSamplesStayTenBit := by
  refine ⟨samplesTenBit_reset, fun s t hs he h => ?_, fun s sl o hs hodd => ?_⟩
  · obtain ⟨es, n, hnext⟩ := nextEvent_state s
    exact samplesTenBit_deliver (samplesTenBit_of_same_memory (by rw [hnext]) hs) he h
  · rw [frameRead_eq_half_sample, if_neg (by omega), toNat_highByte]
    have hsample := hs sl (BitVec.ofNat 3 (o.toNat / 2))
    omega

end Sys2Proof.Machine
end

section
/-! Runs over pending events: what holds of the events still to come and of the state, event by event; and the
laws of the pipeline (40_protocol_opcodes.md section 3) and of the stall (42_sampler_sequencer.md R183). -/

namespace Sys2Proof.Machine

/-- A run over pending events, packaged as one induction: `P` speaks of the events still to come and of the
state, does not see the queue or the pulses, and every event takes it one further. -/
theorem runSteps_pending_induction {P : List Event → State → Prop}
    (hbegin : ∀ es u q, P es u → P es (beginStep { u with inputs := q }))
    (hdeliver : ∀ e es u, P (e :: es) u → ∃ t, deliver e u = .next t ∧ P es t)
    {es rest : List Event} {s : State} (hin : s.inputs = es ++ rest) (h : P es s) :
    ∃ t, runSteps es.length s = .next t ∧ t.inputs = rest ∧ P [] t := by
  induction es generalizing s with
  | nil => exact ⟨s, rfl, hin, h⟩
  | cons e es ih =>
    obtain ⟨u, hu, hP⟩ := hdeliver e es _ (hbegin _ _ (es ++ rest) h)
    obtain ⟨t, ht, hrest, hPt⟩ := ih (deliver_keeps_inputs hu) hP
    exact ⟨t, (runSteps_pending es.length hin hu).trans ht, hrest, hPt⟩

/-- The state after the step that delivers an exchange, with `es` pending after it. -/
def afterPendingExchange (s : State) (b : Byte) (es : List Event) : State :=
  afterExchange (decode b) (beginStep { s with inputs := es })

theorem deliver_pending_exchange (s : State) (b : Byte) (es : List Event) :
    deliver (.exchange b) (beginStep { s with inputs := es }) = .next (afterPendingExchange s b es) :=
  exec_eq (decode b) _

@[simp] theorem readActive_afterPendingExchange (s : State) (b : Byte) (es : List Event) (o : Offset) :
    readActive (afterPendingExchange s b es) o = readActive s o := rfl

theorem ordinaryEvent_ne_reset {e : Event} (h : ordinaryEvent e = true) : e ≠ .reset := by
  rintro rfl
  cases h

theorem deliver_answers_of_ordinary {e : Event} (h : ordinaryEvent e = true) (s : State) :
    ∃ t, deliver e s = .next t :=
  deliver_answers_next (by rintro b rfl; cases h) s

/-! ## The staged byte -/

theorem stagedAfter_of_not_stages {i : Instr} (h : i.stages = false) (s : State) : stagedAfter i s = s.tx := by
  cases i with
  | normal => cases h
  | receiveData => cases h
  | fireRelay => rfl
  | ledOn => rfl
  | ledOff => rfl
  | nop b => rfl

/-- No event but reset and a staging exchange writes `tx` (10_state.md R24). -/
theorem deliver_keeps_tx {e : Event} {s t : State} (he : e ≠ .reset) (hstages : stagingEvent e = false)
    (h : deliver e s = .next t) : t.tx = s.tx := by
  obtain ⟨b, rfl, -⟩ | ⟨-, -, htx⟩ := deliver_cur_tx_cases he h
  · rw [eq_afterExchange_of_exec h]
    exact stagedAfter_of_not_stages hstages s
  · exact htx

/-- What the bytes 0 and 1 stage (R123, R124). -/
theorem afterPendingExchange_tx {b : Byte} (h : b.toNat ≤ 1) (s : State) (es : List Event) :
    (afterPendingExchange s b es).tx = frameRead s s.active (if b = 0x01#8 then 0#4 else s.cur) := by
  obtain rfl | rfl : b = 0x00#8 ∨ b = 0x01#8 := by
    revert b
    decide
  · rfl
  · rfl

/-- A run without reset, overrun and staging exchange keeps the staged byte. -/
theorem runSteps_keeps_tx {es rest : List Event} {s : State} (hin : s.inputs = es ++ rest)
    (hes : ∀ e ∈ es, ordinaryEvent e = true ∧ stagingEvent e = false) :
    ∃ t, runSteps es.length s = .next t ∧ t.inputs = rest ∧ t.tx = s.tx := by
  obtain ⟨t, ht, hrest, htx, -⟩ := runSteps_pending_induction
    (P := fun es u => u.tx = s.tx ∧ ∀ e ∈ es, ordinaryEvent e = true ∧ stagingEvent e = false)
    (fun _ _ _ h => h) (fun e es u ⟨htx, hes⟩ => by
      obtain ⟨⟨hord, hstages⟩, hes⟩ := List.forall_mem_cons.mp hes
      obtain ⟨t, ht⟩ := deliver_answers_of_ordinary hord u
      exact ⟨t, ht, (deliver_keeps_tx (ordinaryEvent_ne_reset hord) hstages ht).trans htx, hes⟩)
    hin ⟨rfl, hes⟩
  exact ⟨t, ht, hrest, htx⟩

/-- Settles O21: what lies between two exchanges keeps the byte the first one staged (R129). -/
theorem pipelineDepthOne : Obligations.PipelineDepthOne := by
  intro s b b' es rest hin hb hes
  have hfirst := deliver_pending_exchange s b (es ++ .exchange b' :: rest)
  obtain ⟨u, hu, huin, hutx⟩ := runSteps_keeps_tx (deliver_keeps_inputs hfirst) hes
  refine ⟨afterPendingExchange u b' rest, ?_, rfl, ?_⟩
  · calc
      runSteps (es.length + 2) s = runSteps (es.length + 1) (afterPendingExchange s b (es ++ .exchange b' :: rest)) :=
        runSteps_pending _ hin hfirst
      _ = runSteps 1 u := runSteps_add es.length 1 _ _ hu
      _ = .next (afterPendingExchange u b' rest) := runSteps_pending 0 huin (deliver_pending_exchange u b' rest)
  · rw [← afterPendingExchange_tx hb s (es ++ .exchange b' :: rest)]
    exact congrArg some hutx

/-! ## Reading a frame -/

theorem runReplies_pending_exchange {k : Nat} {s : State} {b : Byte} {es : List Event}
    {replies : List Byte} {t : State} (hin : s.inputs = .exchange b :: es)
    (h : runReplies k (afterPendingExchange s b es) = some (replies, t)) :
    runReplies (k + 1) s = some (s.tx :: replies, t) := by
  have hstep : step s = .next (afterPendingExchange s b es) :=
    (step_eq_deliver_of_pending hin).trans (deliver_pending_exchange s b es)
  simp only [runReplies, hstep, h]
  rfl

/-- The `k` bytes of the active slot from the cursor on. -/
def burst (s : State) (k : Nat) : List Byte := (List.range k).map fun o => readActive s (s.cur + BitVec.ofNat 4 o)

theorem burst_succ (s : State) (es : List Event) (k : Nat) :
    burst s (k + 1) = readActive s s.cur :: burst (afterPendingExchange s 0x00#8 es) k := by
  have hnext : ∀ o : Nat, s.cur + BitVec.ofNat 4 (o + 1) = s.cur + 1#4 + BitVec.ofNat 4 o := fun o => by
    rw [Nat.add_comm o, BitVec.ofNat_add, BitVec.add_assoc]
  rw [burst, List.range_succ_eq_map, List.map_cons, List.map_map, BitVec.add_zero]
  exact congrArg _ (List.map_congr_left fun o _ => congrArg (readActive s) (hnext o))

/-- `k` NORMALs and one more exchange reply the staged byte and then the `k` bytes from the cursor on. -/
theorem runReplies_normals (k : Nat) (last : Byte) {rest : List Event} {s : State}
    (hin : s.inputs = List.replicate k (.exchange 0x00#8) ++ .exchange last :: rest) :
    ∃ t, runReplies (k + 1) s = some (s.tx :: burst s k, t) ∧ t.inputs = rest := by
  induction k generalizing s with
  | zero => exact ⟨_, runReplies_pending_exchange hin rfl, rfl⟩
  | succ k ih =>
    obtain ⟨t, ht, hrest⟩ := ih (s := afterPendingExchange s 0x00#8 _) rfl
    exact ⟨t, by rw [runReplies_pending_exchange hin ht, burst_succ]; rfl, hrest⟩

theorem readFrame_events (last : Byte) (rest : List Event) :
    (readFrameBytes last).map Event.exchange ++ rest =
      .exchange 0x01#8 :: (List.replicate 15 (.exchange 0x00#8) ++ .exchange last :: rest) := by
  simp [readFrameBytes]

/-- What RECEIVEDATA leaves staged and the burst after it are the payload (R131). -/
theorem payload_eq_burst (s : State) (es : List Event) :
    payload s =
      (afterPendingExchange s 0x01#8 es).tx :: burst (afterPendingExchange s 0x01#8 es) 15 := by
  have h := burst_succ { s with cur := 0#4 } es 15
  simp only [burst, BitVec.zero_add] at h
  exact h

/-- During a burst the staged byte is the one before the cursor. -/
theorem runSteps_normals {k : Nat} {rest : List Event} {s : State}
    (hin : s.inputs = List.replicate k (.exchange 0x00#8) ++ rest) (htx : s.tx = readActive s (s.cur - 1#4)) :
    ∃ t, runSteps k s = .next t ∧ t.cur = s.cur + BitVec.ofNat 4 k ∧ t.tx = readActive s (t.cur - 1#4) := by
  induction k generalizing s with
  | zero => exact ⟨s, rfl, (BitVec.add_zero s.cur).symm, htx⟩
  | succ k ih =>
    have hnext : (afterPendingExchange s 0x00#8 (List.replicate k (.exchange 0x00#8) ++ rest)).tx =
        readActive s (s.cur + 1#4 - 1#4) := by
      rw [BitVec.add_sub_cancel]
      rfl
    obtain ⟨t, ht, hcur, hlast⟩ := ih rfl hnext
    refine ⟨t, (runSteps_pending k hin (deliver_pending_exchange s _ _)).trans ht, ?_, hlast⟩
    calc
      t.cur = s.cur + 1#4 + BitVec.ofNat 4 k := hcur
      _ = s.cur + BitVec.ofNat 4 (k + 1) := by rw [Nat.add_comm k, BitVec.ofNat_add, BitVec.add_assoc]

/-- RECEIVEDATA leaves byte 0 staged and the cursor after it (R124). -/
theorem afterPendingExchange_receiveData (s : State) (es : List Event) :
    (afterPendingExchange s 0x01#8 es).tx = readActive s 0#4 ∧ (afterPendingExchange s 0x01#8 es).cur = 1#4 :=
  ⟨rfl, rfl⟩

/-- Settles O22: RECEIVEDATA stages byte 0 and each NORMAL the next one, so the burst wraps with byte 15 staged,
and every reply is the byte staged before. -/
theorem readFrameStreamsThePayload : Obligations.ReadFrameStreamsThePayload := by
  intro s last rest hin
  rw [readFrame_events] at hin
  have hfirst := deliver_pending_exchange s 0x01#8 (List.replicate 15 (.exchange 0x00#8) ++ .exchange last :: rest)
  obtain ⟨htx, hcur⟩ :=
    afterPendingExchange_receiveData s (List.replicate 15 (.exchange 0x00#8) ++ .exchange last :: rest)
  have hfirstin := deliver_keeps_inputs hfirst
  constructor
  · obtain ⟨u, hu, hucur, hutx⟩ := runSteps_normals hfirstin
      (by rw [htx, hcur, BitVec.sub_self, readActive_afterPendingExchange])
    have hwrap : u.cur = 0#4 := by
      rw [hucur, hcur]
      rfl
    exact ⟨u, (runSteps_pending 15 hin hfirst).trans hu, hwrap, by
      rw [hutx, hwrap, readActive_afterPendingExchange, BitVec.zero_sub]
      rfl⟩
  · obtain ⟨t, ht, hrest⟩ := runReplies_normals 15 last hfirstin
    exact ⟨t, by rw [runReplies_pending_exchange hin ht, payload_eq_burst], hrest⟩

end Sys2Proof.Machine
end

section
/-! Runs of the sequencer among other traffic: the stalled conversion (42_sampler_sequencer.md R183) and one whole
sweep (R180). -/

namespace Sys2Proof.Machine

theorem sameSequencer_refl (s : State) : SameSequencer s s := ⟨rfl, rfl, rfl, rfl, rfl, rfl, rfl⟩

theorem sameSequencer_beginStep (s : State) (q : List Event) : SameSequencer s (beginStep { s with inputs := q }) :=
  ⟨rfl, rfl, rfl, rfl, rfl, rfl, rfl⟩

theorem SameSequencer.trans {s t u : State} (h : SameSequencer s t) (h' : SameSequencer t u) : SameSequencer s u where
  seq := h'.seq.trans h.seq
  ch := h'.ch.trans h.ch
  active := h'.active.trans h.active
  adcRef := h'.adcRef.trans h.adcRef
  adcMux := h'.adcMux.trans h.adcMux
  dacSetpoint := h'.dacSetpoint.trans h.dacSetpoint
  frameMem := h'.frameMem.trans h.frameMem

/-- Only SWEEP_START consumes a pending tick, and only a tick sets one (10_state.md R31). -/
theorem deliver_tickPending_iff {e : Event} {s t : State} (he : e ≠ .reset) (hidle : e = .seq → s.seq ≠ .idle)
    (h : deliver e s = .next t) : t.tickPending = true ↔ s.tickPending = true ∨ e = .tick := by
  obtain ⟨rfl, -⟩ | ⟨b, rfl, hx⟩ | ⟨rfl, rfl⟩ | ⟨rfl, rfl⟩ | ⟨r, rfl, rfl⟩ | ⟨level, rfl, rfl⟩ :=
    deliver_next_cases h
  · exact absurd rfl he
  · rw [eq_afterExchange_of_exec hx]
    simp [afterExchange]
  · simp [setTickPending]
  · obtain ⟨hs, -⟩ | ⟨hs, -⟩ | ⟨-, ht⟩ | ⟨-, ht⟩ | ⟨-, ht⟩ | ⟨-, ht⟩ := seqStep_cases s
    · exact absurd hs (hidle rfl)
    · exact absurd hs (hidle rfl)
    · simp [ht, setup_eq]
    · simp [ht]
    · rw [ht, monitorStep_frame]
      simp
    · simp [ht, publishStep_eq]
  · rw [adcDone_frame]
    simp
  · rw [blinkTimer_eq]
    simp

/-! ## The stall -/

/-- Where a run stands that began with `all` pending in a stalled block `s`. -/
structure Stalled (s : State) (all es : List Event) (u : State) : Prop where
  sequencer : SameSequencer s u
  ordinary : ∀ e ∈ es, ordinaryEvent e = true ∧ ∀ r, e ≠ .adcDone r
  relay : u.relayOpen = true ∨ .exchange 0x02#8 ∈ es ↔ s.relayOpen = true ∨ .exchange 0x02#8 ∈ all
  tick : u.tickPending = true ∨ .tick ∈ es ↔ s.tickPending = true ∨ .tick ∈ all

/-- Without the completion the sequencer has no step in WAIT (R183). -/
theorem deliver_keeps_sequencer_in_wait {e : Event} {s t : State} (hs : s.seq = .wait) (he : e ≠ .reset)
    (hadc : ∀ r, e ≠ .adcDone r) (h : deliver e s = .next t) : SameSequencer s t := by
  by_cases hsweep : sweepEvent e = false
  · exact deliver_keeps_sequencer he hsweep h
  · cases e with
    | seq =>
      obtain rfl := Host.Outcome.next.inj h
      simp only [seqStep, hs]
      exact sameSequencer_refl s
    | adcDone r => exact absurd rfl (hadc r)
    | _ => exact absurd rfl hsweep

theorem Stalled.deliver {s : State} {all : List Event} (hs : s.seq = .wait) {e : Event} {es : List Event} {u : State}
    (h : Stalled s all (e :: es) u) : ∃ t, deliver e u = .next t ∧ Stalled s all es t := by
  obtain ⟨⟨hord, hadc⟩, hes⟩ := List.forall_mem_cons.mp h.ordinary
  obtain ⟨t, ht⟩ := deliver_answers_of_ordinary hord u
  have hreset := ordinaryEvent_ne_reset hord
  have hwait : u.seq = .wait := h.sequencer.seq.trans hs
  refine ⟨t, ht, h.sequencer.trans (deliver_keeps_sequencer_in_wait hwait hreset hadc ht), hes, ?_, ?_⟩
  · rw [← h.relay, deliver_relayOpen_iff hreset ht, List.mem_cons, eq_comm (a := e), hwait]
    simp [or_assoc]
  · rw [← h.tick, deliver_tickPending_iff hreset (by simp [hwait]) ht, List.mem_cons, eq_comm (a := e), or_assoc]

/-- Settles O37: by the run that keeps `Stalled`; a staging opcode then finds the frame as it was. -/
theorem stallFreezesSamplingOnly : Obligations.StallFreezesSamplingOnly := by
  intro s es rest hs hin hes
  obtain ⟨t, ht, hrest, hseq, -, hrelay, htick⟩ := runSteps_pending_induction (P := Stalled s es)
    (fun _ u q h => ⟨h.sequencer.trans (sameSequencer_beginStep u q), h.ordinary, h.relay, h.tick⟩)
    (fun _ _ _ h => h.deliver hs) hin ⟨sameSequencer_refl s, hes, Iff.rfl, Iff.rfl⟩
  refine ⟨t, ht, hrest, hseq.seq.trans hs, hseq.ch, hseq.active, hseq.dacSetpoint, hseq.frameMem,
    by simpa using hrelay, by simpa using htick, fun i hi => ⟨_, exec_eq i t, ?_⟩⟩
  rw [← frameRead_congr hseq.frameMem, ← hseq.active]
  cases i with
  | normal => rfl
  | receiveData => rfl
  | _ => cases hi

/-! ## One sweep -/

/-- Where a sweep stands. -/
inductive SweepPlace where
  | armed
  | setup (c : Channel)
  | wait (c : Channel)
  | swept
  | checked
  | published

/-- The sequencer's steps from channel `n` on. -/
def stepsFrom (r : Channel → AdcResult) (n : Nat) : List Event :=
  (sweepChannels.drop n).flatMap (fun c => [.seq, .adcDone (r c)]) ++ [.seq, .seq]

theorem stepsFrom_channel (r : Channel → AdcResult) (c : Channel) :
    stepsFrom r c.toNat = .seq :: .adcDone (r c) :: stepsFrom r (c.toNat + 1) := by
  have hdrop : sweepChannels.drop c.toNat = c :: sweepChannels.drop (c.toNat + 1) := by
    revert c
    decide
  simp only [stepsFrom, hdrop, List.flatMap_cons, List.cons_append, List.nil_append]

/-- The sequencer's steps still to come. -/
def SweepPlace.pending (r : Channel → AdcResult) : SweepPlace → List Event
  | .armed => .seq :: stepsFrom r 0
  | .setup c => stepsFrom r c.toNat
  | .wait c => .adcDone (r c) :: stepsFrom r (c.toNat + 1)
  | .swept => [.seq, .seq]
  | .checked => [.seq]
  | .published => []

/-- Whether the monitor's checks are still to come. -/
def SweepPlace.unchecked : SweepPlace → Bool
  | .armed => true
  | .setup _ => true
  | .wait _ => true
  | .swept => true
  | .checked => false
  | .published => false

/-- One of the monitor's checks fires on the samples of the results `r`. -/
def SweepTrips (r : Channel → AdcResult) : Prop :=
  Config.supplyEstimate (sampleOfResult (r cell0Channel)) ≤ Config.vMin ∨
    Config.tMax ≤ Config.temperature (sampleOfResult (r tempChannel))

/-- The slots during a sweep that began in `s`, with the channels below `n` stored. -/
structure SweepSlots (s : State) (r : Channel → AdcResult) (n : Nat) (u : State) : Prop where
  stored : ∀ c : Channel, c.toNat < n → sample u (inactiveSlot s) c = sampleOfResult (r c)
  kept : ∀ c : Channel, sample u s.active c = sample s s.active c

/-- The ADC's controls and `ch` are those of channel `c` (R172 to R174). -/
structure Presents (c : Channel) (u : State) : Prop where
  ch : u.ch = c
  adcRef : u.adcRef = chRef c
  adcMux : u.adcMux = Config.chInput c

/-- The setpoint for the CELL0 of the results `r` (43_monitor_relay_indicator.md R202). -/
def sweepSetpoint (r : Channel → AdcResult) : BitVec Config.dacWidth :=
  Config.setpointFor Config.iTarget (Config.supplyEstimate (sampleOfResult (r cell0Channel)))

/-- The place in the state table. -/
def SweepPlace.seq : SweepPlace → SeqState
  | .armed => .idle
  | .setup _ => .setup
  | .wait _ => .wait
  | .swept => .monitor
  | .checked => .publish
  | .published => .idle

/-- How many channels are stored. -/
def SweepPlace.count : SweepPlace → Nat
  | .armed => 0
  | .setup c => c.toNat
  | .wait c => c.toNat
  | .swept => 8
  | .checked => 8
  | .published => 8

/-- The slot the host reads: the other one only after PUBLISH. -/
def SweepPlace.activeSlot (s : State) : SweepPlace → Slot
  | .armed => s.active
  | .setup _ => s.active
  | .wait _ => s.active
  | .swept => s.active
  | .checked => s.active
  | .published => inactiveSlot s

/-- What the sequencer has set up at a place. -/
def SweepPlace.HasSet (r : Channel → AdcResult) : SweepPlace → State → Prop
  | .armed, u => u.tickPending = true
  | .setup c, u => u.ch = c
  | .wait c, u => Presents c u
  | .swept, u => Presents lastChannel u
  | .checked, u => Presents lastChannel u ∧ u.dacSetpoint = sweepSetpoint r
  | .published, u => Presents lastChannel u ∧ u.dacSetpoint = sweepSetpoint r

/-- The state of the block at a place of the sweep with results `r` that began in `s`. -/
structure SweepPlace.At (s : State) (r : Channel → AdcResult) (place : SweepPlace) (u : State) : Prop where
  seq : u.seq = place.seq
  active : u.active = place.activeSlot s
  slots : SweepSlots s r place.count u
  hasSet : place.HasSet r u

/-- The relay is open, or a check still to come will open it. -/
def SweepPlace.Opens (r : Channel → AdcResult) (place : SweepPlace) (u : State) : Prop :=
  u.relayOpen = true ∨ (place.unchecked = true ∧ SweepTrips r)

theorem sweepSlots_congr {s u t : State} {r : Channel → AdcResult} {n : Nat} (h : SweepSlots s r n u)
    (hmem : t.frameMem = u.frameMem) : SweepSlots s r n t :=
  ⟨fun c hc => (sample_congr hmem _ c).trans (h.stored c hc), fun c => (sample_congr hmem _ c).trans (h.kept c)⟩

theorem presents_congr {c : Channel} {u t : State} (hq : SameSequencer u t) (h : Presents c u) : Presents c t :=
  ⟨hq.ch.trans h.ch, hq.adcRef.trans h.adcRef, hq.adcMux.trans h.adcMux⟩

/-- A place is kept by what leaves the sequencer's elements and a pending tick alone. -/
theorem SweepPlace.at_congr {s u t : State} {r : Channel → AdcResult} {place : SweepPlace}
    (hq : SameSequencer u t) (htick : u.tickPending = true → t.tickPending = true) (h : place.At s r u) :
    place.At s r t := by
  refine ⟨hq.seq.trans h.seq, hq.active.trans h.active, sweepSlots_congr h.slots hq.frameMem, ?_⟩
  have hset := h.hasSet
  cases place with
  | armed => exact htick hset
  | setup c => exact hq.ch.trans hset
  | wait c => exact presents_congr hq hset
  | swept => exact presents_congr hq hset
  | checked => exact ⟨presents_congr hq hset.1, hq.dacSetpoint.trans hset.2⟩
  | published => exact ⟨presents_congr hq hset.1, hq.dacSetpoint.trans hset.2⟩

/-! ### The sequencer's steps -/

theorem sample_store_self (q : AdcResult) (u : State) :
    sample (store q u) (inactiveSlot u) u.ch = sampleOfResult q := by
  rw [sample_congr (store_frameMem q u), sample_frameWrite_self]

theorem inactiveSlot_congr {s u : State} (h : u.active = s.active) : inactiveSlot u = inactiveSlot s := by
  rw [inactiveSlot, h, inactiveSlot]

/-- STORE adds the next channel to those stored. -/
theorem sweepSlots_store {s u : State} {r : Channel → AdcResult} (hactive : u.active = s.active)
    (h : SweepSlots s r u.ch.toNat u) : SweepSlots s r (u.ch.toNat + 1) (store (r u.ch) u) := by
  refine ⟨fun c hc => ?_, fun c => ?_⟩
  · rw [← inactiveSlot_congr hactive]
    by_cases hch : c = u.ch
    · rw [hch, sample_store_self]
    · have hne : c.toNat ≠ u.ch.toNat := fun heq => hch (BitVec.eq_of_toNat_eq heq)
      rw [sample_store_of_ne _ hch, inactiveSlot_congr hactive]
      exact h.stored c (by omega)
  · rw [← hactive, sample_store_active, hactive]
    exact h.kept c

theorem SweepPlace.At.sweepStart {s u : State} {r : Channel → AdcResult} (h : SweepPlace.armed.At s r u) :
    (SweepPlace.setup tempChannel).At s r (sweepStart u) :=
  ⟨rfl, h.active, sweepSlots_congr h.slots rfl, rfl⟩

theorem SweepPlace.At.setup {s u : State} {r : Channel → AdcResult} {c : Channel}
    (h : (SweepPlace.setup c).At s r u) : (SweepPlace.wait c).At s r (Machine.setup u) := by
  obtain rfl : u.ch = c := h.hasSet
  rw [setup_eq]
  exact ⟨rfl, h.active, sweepSlots_congr h.slots rfl, rfl, rfl, rfl⟩

/-- The place after the completion of channel `c`. -/
def afterStore (c : Channel) : SweepPlace := if c = lastChannel then .swept else .setup (c + 1#3)

theorem afterStore_pending (r : Channel → AdcResult) (c : Channel) :
    (afterStore c).pending r = stepsFrom r (c.toNat + 1) := by
  by_cases hlast : c = lastChannel
  · rw [afterStore, if_pos hlast, hlast]
    rfl
  · rw [afterStore, if_neg hlast, SweepPlace.pending, toNat_next_channel hlast]

theorem afterStore_unchecked (c : Channel) : (afterStore c).unchecked = true := by
  unfold afterStore
  split <;> rfl

theorem SweepPlace.At.store {s u : State} {r : Channel → AdcResult} {c : Channel} (h : (SweepPlace.wait c).At s r u) :
    (afterStore c).At s r (store (r c) u) := by
  have hset : Presents c u := h.hasSet
  have hactive : u.active = s.active := h.active
  obtain rfl : u.ch = c := hset.ch
  have hslots : SweepSlots s r (u.ch.toNat + 1) (Machine.store (r u.ch) u) := sweepSlots_store hactive h.slots
  by_cases hlast : u.ch = lastChannel
  · obtain ⟨hseq, hch⟩ := store_of_last hlast (r u.ch)
    rw [afterStore, if_pos hlast]
    rw [(eq_lastChannel_iff u.ch).mp hlast] at hslots
    refine ⟨hseq, (store_active _ u).trans hactive, hslots, hch.trans hlast, ?_, ?_⟩
    · rw [store_eq, ← hlast]
      exact hset.adcRef
    · rw [store_eq, ← hlast]
      exact hset.adcMux
  · obtain ⟨hseq, hch⟩ := store_of_not_last hlast (r u.ch)
    rw [afterStore, if_neg hlast]
    rw [← toNat_next_channel hlast] at hslots
    exact ⟨hseq, (store_active _ u).trans hactive, hslots, hch⟩

theorem SweepPlace.At.monitorStep {s u : State} {r : Channel → AdcResult} (h : SweepPlace.swept.At s r u) :
    SweepPlace.checked.At s r (monitorStep u) := by
  have hset : Presents lastChannel u := h.hasSet
  refine ⟨rfl, (monitorStep_active u).trans h.active, sweepSlots_congr h.slots (monitorStep_frameMem u), ?_, ?_⟩
  · rw [monitorStep_frame]
    exact ⟨hset.ch, hset.adcRef, hset.adcMux⟩
  · rw [monitorStep_dacSetpoint, inactiveSlot_congr h.active, h.slots.stored cell0Channel (by decide), sweepSetpoint]

theorem SweepPlace.At.publishStep {s u : State} {r : Channel → AdcResult} (h : SweepPlace.checked.At s r u) :
    SweepPlace.published.At s r (publishStep u) := by
  obtain ⟨hpresents, hdac⟩ := h.hasSet
  refine ⟨rfl, (publishStep_active u).trans ?_, sweepSlots_congr h.slots (publishStep_frameMem u), ?_, ?_⟩
  · exact inactiveSlot_congr h.active
  · rw [publishStep_eq]
    exact ⟨hpresents.ch, hpresents.adcRef, hpresents.adcMux⟩
  · rw [publishStep_eq]
    exact hdac

/-- At the end of the sweep the monitor checks this sweep's results. -/
theorem SweepPlace.At.monitorTrips_iff {s u : State} {r : Channel → AdcResult} (h : SweepPlace.swept.At s r u) :
    MonitorTrips u ↔ SweepTrips r := by
  rw [MonitorTrips, inactiveSlot_congr h.active, h.slots.stored cell0Channel (by decide),
    h.slots.stored tempChannel (by decide), SweepTrips]

/-- The next of the sequencer's steps leads to the next place, and the checks decide what they were to decide. -/
theorem SweepPlace.At.advance {s u : State} {r : Channel → AdcResult} {place : SweepPlace} {e : Event}
    {es : List Event} (h : place.At s r u) (hp : place.pending r = e :: es) :
    ∃ t, ∃ next : SweepPlace, deliver e u = .next t ∧ next.pending r = es ∧ next.At s r t ∧
      (next.Opens r t ↔ place.Opens r u) := by
  have hset := h.hasSet
  cases place with
  | armed =>
    obtain ⟨rfl, rfl⟩ := List.cons.inj hp
    exact ⟨_, _, deliver_seq_of_pending_tick h.seq hset, rfl, h.sweepStart, Iff.rfl⟩
  | setup c =>
    obtain ⟨rfl, rfl⟩ := List.cons.inj ((stepsFrom_channel r c).symm.trans hp)
    refine ⟨_, _, deliver_seq_of_setup h.seq, rfl, h.setup, ?_⟩
    rw [Opens, Opens, setup_eq, unchecked, unchecked]
  | wait c =>
    obtain ⟨rfl, rfl⟩ := List.cons.inj hp
    refine ⟨_, _, deliver_adcDone_of_wait h.seq (r c), afterStore_pending r c, h.store, ?_⟩
    rw [Opens, Opens, afterStore_unchecked, store_eq, unchecked]
  | swept =>
    obtain ⟨rfl, rfl⟩ := List.cons.inj hp
    refine ⟨_, .checked, deliver_seq_of_monitor h.seq, rfl, h.monitorStep, ?_⟩
    rw [Opens, Opens, monitorStep_relayOpen_iff, ← MonitorTrips, h.monitorTrips_iff]
    simp [unchecked]
  | checked =>
    obtain ⟨rfl, rfl⟩ := List.cons.inj hp
    refine ⟨_, .published, deliver_seq_of_publish h.seq, rfl, h.publishStep, ?_⟩
    rw [Opens, Opens, publishStep_eq, unchecked, unchecked]
  | published => cases hp

/-! ### The sweep among other traffic -/

/-- Where a run stands that began with `all` pending in `s` and makes the sweep with results `r`. -/
structure SweepRun (s : State) (r : Channel → AdcResult) (all es : List Event) (place : SweepPlace) (u : State) :
    Prop where
  steps : es.filter sweepEvent = place.pending r
  ordinary : ∀ e ∈ es, ordinaryEvent e = true
  reached : place.At s r u
  opens : place.Opens r u ∨ .exchange 0x02#8 ∈ es ↔ SweepPlace.armed.Opens r s ∨ .exchange 0x02#8 ∈ all

/-- Traffic keeps the place; a step of the sequencer is the next one of the sweep. -/
theorem SweepRun.deliver {s : State} {r : Channel → AdcResult} {all : List Event} {e : Event} {es : List Event}
    {place : SweepPlace} {u : State} (h : SweepRun s r all (e :: es) place u) :
    ∃ t, deliver e u = .next t ∧ ∃ next, SweepRun s r all es next t := by
  obtain ⟨hord, hes⟩ := List.forall_mem_cons.mp h.ordinary
  have hreset := ordinaryEvent_ne_reset hord
  cases hsweep : sweepEvent e with
  | true =>
    have hsteps := h.steps
    rw [List.filter_cons_of_pos hsweep] at hsteps
    obtain ⟨t, next, ht, hpending, hreached, hopens⟩ := h.reached.advance hsteps.symm
    refine ⟨t, ht, next, hpending.symm, hes, hreached, ?_⟩
    have hne : Event.exchange 0x02#8 ≠ e := by
      rintro rfl
      cases hsweep
    rw [hopens, ← h.opens, List.mem_cons, or_iff_right hne]
  | false =>
    have hsteps := h.steps
    rw [List.filter_cons_of_neg (by simp [hsweep])] at hsteps
    obtain ⟨t, ht⟩ := deliver_answers_of_ordinary hord u
    have hseq : e ≠ .seq := by
      rintro rfl
      cases hsweep
    have htick := deliver_tickPending_iff hreset (fun heq => absurd heq hseq) ht
    refine ⟨t, ht, place, hsteps, hes,
      SweepPlace.at_congr (deliver_keeps_sequencer hreset hsweep ht) (fun hp => htick.mpr (.inl hp)) h.reached, ?_⟩
    rw [← h.opens, SweepPlace.Opens, SweepPlace.Opens, deliver_relayOpen_iff hreset ht, List.mem_cons,
      eq_comm (a := e)]
    simp only [hseq, false_and, or_false]
    rw [or_or_or_comm]
    exact or_assoc

theorem sampleOfResult_eq_ofNat (q : AdcResult) : sampleOfResult q = BitVec.ofNat 16 (q.toNat / 4) := by
  rw [← sampleOfResult_toNat, BitVec.ofNat_toNat, BitVec.setWidth_eq]

/-- Only the last place has no step of the sequencer left. -/
theorem eq_published_of_pending_nil {r : Channel → AdcResult} {place : SweepPlace} (h : place.pending r = []) :
    place = .published := by
  cases place with
  | published => rfl
  | setup c => simp [SweepPlace.pending, stepsFrom] at h
  | _ => cases h

/-- Settles O36: by the run that keeps `SweepRun`, whose last place has the frame published. -/
theorem wholeSweepPublishesItsFrame : Obligations.WholeSweepPublishesItsFrame := by
  intro s r es rest hin hsweep hord hidle htick
  have harmed : SweepPlace.armed.At s r s := ⟨hidle, rfl, ⟨nofun, fun _ => rfl⟩, htick⟩
  obtain ⟨t, ht, hrest, place, hsteps, -, hat, hopens⟩ := runSteps_pending_induction
    (P := fun es' u => ∃ place, SweepRun s r es es' place u)
    (fun _ u q ⟨place, h⟩ => ⟨place, h.steps, h.ordinary,
      SweepPlace.at_congr (sameSequencer_beginStep u q) id h.reached, h.opens⟩)
    (fun _ _ _ ⟨_, h⟩ => h.deliver) hin ⟨.armed, hsweep, hord, harmed, Iff.rfl⟩
  obtain rfl := eq_published_of_pending_nil hsteps.symm
  obtain ⟨hpresents, hdac⟩ := hat.hasSet
  refine ⟨t, ht, hrest, hat.seq, hat.active, hpresents.ch, hpresents.adcRef, hpresents.adcMux, fun c => ?_,
    hat.slots.kept, ?_, ?_⟩
  · rw [hat.active, SweepPlace.activeSlot, hat.slots.stored c c.isLt, sampleOfResult_toNat]
  · rw [hdac, sweepSetpoint, sampleOfResult_eq_ofNat, cell0Channel]
  · simp only [SweepPlace.Opens, SweepPlace.unchecked, SweepTrips, sampleOfResult_eq_ofNat, cell0Channel, tempChannel,
      List.not_mem_nil, Bool.false_eq_true, false_and, true_and, or_false] at hopens
    exact hopens.trans (or_assoc.trans (or_congr_right or_comm))

end Sys2Proof.Machine
end
